-- ==== Sys2Proof/Config.lean ====
section
/-! DEFINITION. The block's implementation parameters (spec/00_scope.md R9, R10), each a named constant,
and the model's free values: constants without a body, of which nothing can be proved. -/

namespace Sys2Proof.Config

/-! ## Parameters of R9

The widths are simp lemmas, so that proofs see the numbers. -/

/-- `N_LEVELS`: intensity levels of a LightingPacket and level fields of a WireFrame (R9). -/
@[simp] abbrev nLevels : Nat := 16

/-- `LEVEL_W`: width of a logical intensity value (R9). -/
@[simp] abbrev levelW : Nat := 8

/-- `CODE_W`: width of a quantized level code (R9). -/
@[simp] abbrev codeW : Nat := 3

/-- `FRAME_W`: WireFrame width in bits (R9). -/
@[simp] abbrev frameW : Nat := 64

/-- `FADE_CODE_W`: fade-time code width (R9). -/
@[simp] abbrev fadeCodeW : Nat := 8

/-- `TIME_STEP_MS`: milliseconds per fade code step (R9). -/
def timeStepMs : Nat := 100

/-- `FADE_CODE_MAX`: the saturation code (R9). -/
def fadeCodeMax : Nat := 255

/-- `FADE_MS_MAX`: the largest duration the code represents (R9). -/
def fadeMsMax : Nat := 25500

/-- `FADE_MS_W`: width of the logical fade time. R10 asks for at least 15 and fixes 16; the time codec
itself is written for every width (log 11). -/
@[simp] abbrev fadeMsW : Nat := 16

/-- `MASK_W`: logical tree mask width (R9). -/
@[simp] abbrev maskW : Nat := 8

/-- `N_UNITS`: units addressable bit by bit, mask bits 0..5 (R9). -/
def nUnits : Nat := 6

/-- `ALL_UNITS`: the all-units sentinel mask value (R9). -/
def allUnits : BitVec maskW := 0xFF

/-- `MEM_INDEX_W`: width of `memory_index` (R9). -/
@[simp] abbrev memIndexW : Nat := 8

/-- `CF_MODE_W`: ControlFrame mode width (R9). -/
@[simp] abbrev cfModeW : Nat := 2

/-- `CF_UNIT_W`: ControlFrame unit-id width (R9). -/
@[simp] abbrev cfUnitW : Nat := 3

/-- `CF_VERIFY_W`: ControlFrame verification field width (R9). -/
@[simp] abbrev cfVerifyW : Nat := 16

/-- `CF_VERIFY_CONST`: the verification constant (R9). -/
def cfVerifyConst : BitVec cfVerifyW := 0x0E76

/-- `CF_BITS`: ControlFrame content bits (R9). -/
def cfBits : Nat := 21

/-- `CF_W`: ControlFrame width after padding (R9). -/
@[simp] abbrev cfW : Nat := 24

/-- `OP_W`: width of the operation code (R9). -/
@[simp] abbrev opW : Nat := 3

/-- `LATENCY`: clock edges from request to visible result (R9). -/
def latency : Nat := 1

/-- What PACK may store in the level fields of a Memory-type packet. R161 settles on one policy; the
alternatives that D13 sets aside are not part of this block. -/
inductive MemoryModePolicy where
  | quantizeLevels
  deriving DecidableEq, Repr

/-- `MEMORY_MODE_POLICY` (R9, R161; log 12). -/
def memoryModePolicy : MemoryModePolicy := .quantizeLevels

/-! ## Widths the other rules give -/

/-- Width of the low-address sub-field of a WireFrame (R76). -/
@[simp] abbrev lowMaskW : Nat := 5

/-- Width of a ControlFrame's padding (R81). -/
@[simp] abbrev cfPadW : Nat := 3

/-- Width of STATUS (R26, R27). -/
@[simp] abbrev statusW : Nat := 5

/-! ## Free values

The port values at an edge for which the state lists none (log 2), numbered by the count of edges. DESIGN
CHOICE, safe: nothing constrains what the host drives. -/

opaque freeRst : Nat → BitVec 1
opaque freeReqValid : Nat → BitVec 1
opaque freeReqOp : Nat → BitVec opW
opaque freeLpType : Nat → BitVec 1
opaque freeLpLevel : Nat → Nat → BitVec levelW
opaque freeLpMemoryIndex : Nat → BitVec memIndexW
opaque freeLpFade : Nat → BitVec fadeMsW
opaque freeLpMask : Nat → BitVec maskW
opaque freeWf : Nat → BitVec frameW
opaque freeCf : Nat → BitVec cfW

/-! The registers before the first reset, which R32 leaves unspecified (log 6). DESIGN CHOICE, safe. -/

opaque powerUpLpType : BitVec 1
opaque powerUpLpLevel : Nat → BitVec levelW
opaque powerUpLpMemoryIndex : BitVec memIndexW
opaque powerUpLpFade : BitVec fadeMsW
opaque powerUpLpMask : BitVec maskW
opaque powerUpWf : BitVec frameW
opaque powerUpCf : BitVec cfW
opaque powerUpOk : BitVec 1
opaque powerUpStatus : BitVec statusW

end Sys2Proof.Config
end

