-- ==== Sys2Proof/Word.lean ====
section
/-! DEFINITION. The value types of the block: bit vectors at the widths of R9, and the records of R24 and
R33. Every value is unsigned (R12), and bit 0 is the least significant (R11), which is `BitVec`'s own
numbering; `++` puts its left argument in the high bits, as in R12. -/

namespace Sys2Proof

/-- A one-bit port or register. -/
abbrev Bit := BitVec 1

/-- A byte of a frame as the transport carries it (R52, R53). -/
abbrev Byte := BitVec 8

/-- A logical intensity, 0..255 (R24). -/
abbrev Level := BitVec Config.levelW

/-- A quantized intensity, 0..7 (R100). -/
abbrev LevelCode := BitVec Config.codeW

/-- The 8-bit saturating fade-time code (R120). -/
abbrev FadeCode := BitVec Config.fadeCodeW

/-- The logical fade duration in milliseconds (R24). -/
abbrev FadeMs := BitVec Config.fadeMsW

/-- The logical tree mask (R140). -/
abbrev TreeMask := BitVec Config.maskW

/-- The logical memory index (R24). -/
abbrev MemoryIndex := BitVec Config.memIndexW

/-- A WireFrame value `F` (R25). -/
abbrev WireFrame := BitVec Config.frameW

/-- A ControlFrame value `C` (R25). -/
abbrev ControlFrame := BitVec Config.cfW

/-- An operation code, the value of `req_op` (R70). -/
abbrev OpCode := BitVec Config.opW

/-- The STATUS register (R27). -/
abbrev StatusWord := BitVec Config.statusW

/-- A lane: the index of one of the 16 levels (R104). -/
abbrev Lane := Fin Config.nLevels

/-- The 16 intensity levels of a packet (R24). -/
abbrev Levels := Vector Level Config.nLevels

/-- Which of `pwm_levels` and `memory_index` of a packet is active (R24). -/
inductive InstrumentType where
  | dimmer
  | memory
  deriving DecidableEq, Repr

/-- A LightingPacket (R24). -/
structure LightingPacket where
  instrumentType : InstrumentType
  pwmLevels : Levels
  memoryIndex : MemoryIndex
  fadeTimeMs : FadeMs
  treeMask : TreeMask
  deriving DecidableEq, Repr

/-- The three operand buses (R33). -/
structure Buses where
  lpIn : LightingPacket
  wfIn : WireFrame
  cfIn : ControlFrame
  deriving DecidableEq, Repr

/-- A request: the operation code and the operand buses beside it (R70). -/
structure Request extends Buses where
  op : OpCode
  deriving DecidableEq, Repr

/-- The values on all input ports at one rising edge of `clk` (R33). -/
structure Ports extends Buses where
  rst : Bit
  reqValid : Bit
  reqOp : OpCode
  deriving DecidableEq, Repr

end Sys2Proof
end

