-- ==== Sys2Proof/Syntax.lean ====
section
/-! DEFINITION. The operations of the block, one constructor for each row of spec/opcode_table.json. An
operation carries the operand it reads (R71, R72): the whole value of its one operand bus. -/

namespace Sys2Proof

/-- The six operations and the two reserved codes of R71. -/
inductive Instr where
  /-- `PACK`, 0b000: reads `lp_in` (R160). -/
  | pack (lp : LightingPacket)
  /-- `UNPACK`, 0b001: reads `wf_in` (R163). -/
  | unpack (wf : WireFrame)
  /-- `CFVERIFY`, 0b010: reads `cf_in` (R190). -/
  | cfverify (cf : ControlFrame)
  /-- `LPDEF`, 0b011: reads no operand (R166). -/
  | lpdef
  /-- `WFDEF`, 0b100: reads no operand (R167). -/
  | wfdef
  /-- `CFDEF`, 0b101: reads no operand (R192). -/
  | cfdef
  /-- The reserved code 0b110 (R212). -/
  | reserved110
  /-- The reserved code 0b111 (R212). -/
  | reserved111
  deriving DecidableEq, Repr

end Sys2Proof
end

