-- ==== Sys2Proof/WellFormed.lean ====
section
/-! DEFINITION. What is well-formed. An `Instr` always is: its operands are bus values of fixed width, and
no operand value of a legal operation is illegal (R73, R75, R79). What can be ill-formed is what a host
writes before it is a bus value: the numbers on a line of assembler (R86). Those checks stand here. -/

namespace Sys2Proof

/-- R73, R75, R79: every operand value of every operation is legal; a reserved code is a request like any
other (R87), with the effect R212 gives it. -/
def Instr.wellFormed : Instr → Bool
  | .pack _ => true
  | .unpack _ => true
  | .cfverify _ => true
  | .lpdef => true
  | .wfdef => true
  | .cfdef => true
  | .reserved110 => true
  | .reserved111 => true

namespace WellFormed

/-- `levels=[l0 .. l15]`: `N_LEVELS` numbers, each at most 255 (R24, R86). -/
def levels (ls : List Nat) : Bool :=
  ls.length == Config.nLevels && ls.all (fun l => decide (l < 2 ^ Config.levelW))

/-- `mem=<0..255>` (R86). -/
def mem (n : Nat) : Bool := decide (n < 2 ^ Config.memIndexW)

/-- `fade=<ms>`: a value of the `FADE_MS_W`-bit bus field (R24, R86). -/
def fade (n : Nat) : Bool := decide (n < 2 ^ Config.fadeMsW)

/-- `mask=<0xNN>` (R86). -/
def mask (n : Nat) : Bool := decide (n < 2 ^ Config.maskW)

/-- `wf=<0x16 hex digits>` (R86). -/
def wf (n : Nat) : Bool := decide (n < 2 ^ Config.frameW)

/-- `cf=<0x6 hex digits>` (R86). -/
def cf (n : Nat) : Bool := decide (n < 2 ^ Config.cfW)

/-- `code=<0b110|0b111>` (R86). -/
def reservedCode (n : Nat) : Bool := n == 0b110 || n == 0b111

end WellFormed

end Sys2Proof
end

