-- ==== Sys2Proof/Decode.lean ====
section
/-! DEFINITION. The encodings: the instrument type's bit (R74), the operation codes (R71), and the reading
of a request (R72, R87). Every request decodes (R73, R87), so the decoder rejects nothing. After it the
encoder, from the same table. -/

namespace Sys2Proof

/-- R74: Dimmer = 0, Memory = 1. -/
def InstrumentType.toBit : InstrumentType → Bit
  | .dimmer => 0
  | .memory => 1

/-- R74: both bit values are legal and there is no third. -/
def InstrumentType.ofBit (b : Bit) : InstrumentType :=
  match b with
  | 0#1 => .dimmer
  | 1#1 => .memory

/-- All operand buses at zero. -/
def Buses.zero : Buses :=
  { lpIn := { instrumentType := .dimmer, pwmLevels := Vector.replicate Config.nLevels 0, memoryIndex := 0,
              fadeTimeMs := 0, treeMask := 0 },
    wfIn := 0, cfIn := 0 }

/-- R87: one case over all eight values of `req_op`, with no default arm. Each operation takes the one
operand bus R71 names and ignores the other two (R72). -/
def decode (r : Request) : Instr :=
  match r.op with
  | 0b000#3 => .pack r.lpIn
  | 0b001#3 => .unpack r.wfIn
  | 0b010#3 => .cfverify r.cfIn
  | 0b011#3 => .lpdef
  | 0b100#3 => .wfdef
  | 0b101#3 => .cfdef
  | 0b110#3 => .reserved110
  | 0b111#3 => .reserved111

/-- The operation code of R71. -/
def Instr.opcode : Instr → OpCode
  | .pack _ => 0b000
  | .unpack _ => 0b001
  | .cfverify _ => 0b010
  | .lpdef => 0b011
  | .wfdef => 0b100
  | .cfdef => 0b101
  | .reserved110 => 0b110
  | .reserved111 => 0b111

/-- The buses of a request for an operation: its operand on the bus R71 names, and `bg` on the others,
whose values have no effect (R72). -/
def Instr.busesOn (bg : Buses) : Instr → Buses
  | .pack lp => { bg with lpIn := lp }
  | .unpack wf => { bg with wfIn := wf }
  | .cfverify cf => { bg with cfIn := cf }
  | .lpdef => bg
  | .wfdef => bg
  | .cfdef => bg
  | .reserved110 => bg
  | .reserved111 => bg

/-- The request of an operation, with `bg` on the buses the operation does not read. -/
def encodeOn (bg : Buses) (i : Instr) : Request :=
  { toBuses := i.busesOn bg, op := i.opcode }

/-- The request of an operation, with zeros on the buses the operation does not read. -/
def encode (i : Instr) : Request := encodeOn Buses.zero i

/-- The request that a word of spec/opcode_table.json stands for: its bits 2..0 are `req_op` (R70), and the
operand buses, to which the table gives no bits, are zero. The table's mask is 0x7, so the bits above are
no part of the request (log 7). -/
def Request.ofTableWord (nbits w : Nat) : Request :=
  { toBuses := Buses.zero, op := BitVec.ofNat Config.opW (w % 2 ^ nbits) }

/-- The instruction the decoder reads from a word of the table. -/
def decodeTableWord (nbits w : Nat) : Option Instr := some (decode (Request.ofTableWord nbits w))

/-- The ports at an edge that presents the request `r`: `rst` = 0 and `req_valid` = 1 (R70). -/
def Ports.ofRequest (r : Request) : Ports :=
  { toBuses := r.toBuses, rst := 0, reqValid := 1, reqOp := r.op }

/-- The request standing on the ports (R70). -/
def Ports.request (p : Ports) : Request := { toBuses := p.toBuses, op := p.reqOp }

end Sys2Proof
end

