-- ==== Sys2Proof/Machine/State.lean ====
section
/-! DEFINITION. The state of the block: the tuple of R26, and after it the model's own fields, which
the spec does not count as state. -/

namespace Sys2Proof.Machine

/-- Why something faults. No step does: no operation traps (R210, R214), and a reserved code has an effect
(R212). -/
inductive Fault where
  /-- Raised by the strict host reads of the output buses (`strictRead`) before the first
  reset edge, as U9 asks of a strict model (log 6). Safe. -/
  | readBeforeReset
  deriving DecidableEq, Repr

/-- Why something is refused. No step refuses: the readings a RECEIVER makes of data do (log 14), and so
does the host's assembling of frames from bytes (log 17). All safe. -/
inductive Refusal where
  /-- An operation without a meaning. No arm of `exec` raises it. Safe. -/
  | notModelled (mnemonic : String)
  /-- Raised by `activeLevels` and `activeMemoryIndex` on the field that the instrument type makes inactive
  (R24, U1, U2). Safe. -/
  | inactiveField
  /-- Raised by `receiveControl` on a frame without a verdict of 1 (R194). Safe. -/
  | unverifiedFrame
  /-- Raised by `receiveControl` on a mode of 2 or 3 (R82, U5). Safe. -/
  | unassignedMode
  /-- Raised by `wireOfBytes` and `controlOfBytes` on a frame that is not 8 or 3 bytes long (R224, D22,
  log 17). Safe. -/
  | frameLength
  deriving DecidableEq, Repr

/-- The state. The first five fields are the tuple `S` of R26. -/
structure State where
  /-- `RES_LP` (R26). -/
  resLp : LightingPacket
  /-- `RES_WF` (R26). -/
  resWf : WireFrame
  /-- `RES_CF` (R26). -/
  resCf : ControlFrame
  /-- `RES_OK` (R26). -/
  resOk : Bit
  /-- `STATUS` (R26, R27). -/
  status : StatusWord
  /-- The model's own: the port values the host drives at the coming edges, oldest first (R33, log 1). -/
  upcoming : List Ports
  /-- The model's own: the count of edges so far (R251, log 3). -/
  edges : Nat
  /-- The model's own: the sticky fault record of R212, the first reserved code since reset (log 4). -/
  requestFault : Option OpCode
  /-- The model's own: a reset edge has happened since power-up (R32, R242, log 6). -/
  resetSeen : Bool
  deriving DecidableEq, Repr

/-- R31: every element at its reset value; then the model's own fields (log 1, 3, 4, 6). -/
def State.reset : State :=
  { resLp := { instrumentType := .dimmer, pwmLevels := Vector.replicate Config.nLevels 0, memoryIndex := 0,
               fadeTimeMs := 0, treeMask := 0x00 },
    resWf := 0x0000000000000000,
    resCf := 0x01CEC0,
    resOk := 0,
    status := 0b00000,
    upcoming := [], edges := 0, requestFault := none, resetSeen := true }

/-- R32: before the first reset every state element is unspecified. Each is an opaque value (log 6). -/
def State.powerUp : State :=
  { resLp := { instrumentType := InstrumentType.ofBit Config.powerUpLpType,
               pwmLevels := Vector.ofFn (fun i => Config.powerUpLpLevel i.val),
               memoryIndex := Config.powerUpLpMemoryIndex,
               fadeTimeMs := Config.powerUpLpFade, treeMask := Config.powerUpLpMask },
    resWf := Config.powerUpWf,
    resCf := Config.powerUpCf,
    resOk := Config.powerUpOk,
    status := Config.powerUpStatus,
    upcoming := [], edges := 0, requestFault := none, resetSeen := false }

end Sys2Proof.Machine
end

