-- ==== Sys2Proof/Machine/Flags.lean ====
section
/-! DEFINITION. STATUS (R27): its three fields and the values each kind of edge gives it (R243). The block
has no other flag but `RES_OK`, which is a result register (R30). -/

namespace Sys2Proof.Machine

/-- R27: `STATUS = LAST_OP ++ ILLEGAL ++ VALID`. -/
def mkStatus (lastOp : OpCode) (illegal valid : Bit) : StatusWord := lastOp ++ illegal ++ valid

/-- `STATUS.VALID`, bit 0 (R27). -/
def statusValid (st : StatusWord) : Bit := st.extractLsb' 0 1

/-- `STATUS.ILLEGAL`, bit 1 (R27). -/
def statusIllegal (st : StatusWord) : Bit := st.extractLsb' 1 1

/-- `STATUS.LAST_OP`, bits 4:2 (R27). -/
def statusLastOp (st : StatusWord) : OpCode := st.extractLsb' 2 3

/-- R243, R245: an idle edge clears `VALID` and keeps `ILLEGAL` and `LAST_OP`. -/
def idleStatus (st : StatusWord) : StatusWord := mkStatus (statusLastOp st) (statusIllegal st) 0

/-- R243: STATUS after a legal request with code `op`. -/
def legalStatus (op : OpCode) : StatusWord := mkStatus op 0 1

/-- R212, R243: STATUS after a request with the reserved code `op`. -/
def illegalStatus (op : OpCode) : StatusWord := mkStatus op 1 1

end Sys2Proof.Machine
end

