-- ==== Sys2Proof/Machine/Ops.lean ====
section
/-! DEFINITION. The named operations over frames (R14) and over the registers (R13, R28, R29), the effects of
the edges that run no operation (R240, R245), the completion of a legal request (R243) and the one error
condition (R212). -/

namespace Sys2Proof.Machine

/-! ## Fields of a frame value -/

/-- R14: `fld(F, o, w)` is `F[o+w-1:o]`. -/
def fld {n : Nat} (F : BitVec n) (o w : Nat) : BitVec w := F.extractLsb' o w

/-- The ones at the bits of a field at offset `o` of width `w`. -/
def fieldMask (n o w : Nat) : BitVec n := (BitVec.allOnes w).setWidth n <<< o

/-- R14: `ins(F, o, w, v)` is `F` with bits `o+w-1..o` replaced by `v`. -/
def ins {n : Nat} (F : BitVec n) (o w : Nat) (v : BitVec w) : BitVec n :=
  (F &&& ~~~ fieldMask n o w) ||| (v.setWidth n <<< o)

/-! ## Writing a register: every other element keeps its value (R29) -/

/-- `RES_LP <- v`, all five fields (R13, R29). -/
def writeLp (v : LightingPacket) (s : State) : State := { s with resLp := v }

/-- `RES_WF <- v` (R13, R29). -/
def writeWf (v : WireFrame) (s : State) : State := { s with resWf := v }

/-- `RES_CF <- v` (R13, R29). -/
def writeCf (v : ControlFrame) (s : State) : State := { s with resCf := v }

/-- `RES_OK <- v` (R13, R29). -/
def writeOk (v : Bit) (s : State) : State := { s with resOk := v }

/-- The end of a legal request with code `op`: `VALID` 1, `ILLEGAL` 0, `LAST_OP` the code (R243). This is
also the only way `ILLEGAL` is cleared but for reset (R215). -/
def completeLegal (op : OpCode) (s : State) : State := { s with status := legalStatus op }

/-! ## The one error condition -/

/-- R212: taking the illegal-request condition. STATUS records it, no result register changes, and nothing
is saved, masked or jumped to (R214). The model keeps its sticky record (R212, U15): the first reserved
code since reset (log 4). -/
def takeIllegal (op : OpCode) (s : State) : State :=
  { s with status := illegalStatus op, requestFault := s.requestFault.or (some op) }

/-! ## Edges without an operation -/

/-- R240: every state element takes its reset value. The port values still to come and the count of edges
are not the block's (log 1, log 3). -/
def resetEdge (s : State) : State := { State.reset with upcoming := s.upcoming, edges := s.edges }

/-- R243, R245: an idle edge changes `STATUS.VALID` alone. -/
def idleEdge (s : State) : State := { s with status := idleStatus s.status }

/-! ## The output buses (R28) -/

/-- `lp_out` (R28). -/
def lpOut (s : State) : LightingPacket := s.resLp

/-- `wf_out` (R28). -/
def wfOut (s : State) : WireFrame := s.resWf

/-- `cf_out` (R28). -/
def cfOut (s : State) : ControlFrame := s.resCf

/-- `ok_out` (R28). -/
def okOut (s : State) : Bit := s.resOk

/-- `status_out` (R28). -/
def statusOut (s : State) : StatusWord := s.status

/-- U9: in a strict model a host's read of an output before the first reset is a fault (R32). -/
def strictRead {α : Type} (out : State → α) (s : State) : Except Fault α :=
  if s.resetSeen then .ok (out s) else .error .readBeforeReset

end Sys2Proof.Machine
end

