-- ==== Sys2Proof/Machine/Layout.lean ====
section
/-! DEFINITION. Where the fields of the two wire forms stand (R76, R77, R81). -/

namespace Sys2Proof.Machine

/-! ## The WireFrame (R76) -/

/-- `instrumentType`, bit 0 (R76). -/
def typeAt : Nat := 0

/-- `allUnitsFlag`, bit 16 (R76). -/
def allUnitsAt : Nat := 16

/-- `highAddressBit`, bit 47 (R76). -/
def highAddressAt : Nat := 47

/-- `lowAddressMask`, bits 51..55 (R76). -/
def lowMaskAt : Nat := 51

/-- `fadeTimeCode`, bits 56..63 (R76). -/
def fadeCodeAt : Nat := 56

/-- R77: the offset `off(i)` of level field `i`. -/
def off (i : Lane) : Nat :=
  if i.val < 5 then 1 + 3 * i.val
  else if i.val < 10 then 17 + 3 * (i.val - 5)
  else if i.val < 15 then 32 + 3 * (i.val - 10)
  else 48

/-- The 21 fields of R76 as pairs of offset and width. -/
def wireFields : List (Nat × Nat) :=
  [(typeAt, 1), (allUnitsAt, 1), (highAddressAt, 1), (lowMaskAt, Config.lowMaskW),
    (fadeCodeAt, Config.fadeCodeW)] ++
  (List.finRange Config.nLevels).map (fun i => (off i, Config.codeW))

/-! ## The ControlFrame (R81) -/

/-- `mode`, bits 0..1 (R81). -/
def cfModeAt : Nat := 0

/-- `unitId`, bits 2..4 (R81). -/
def cfUnitAt : Nat := 2

/-- `verification`, bits 5..20 (R81). -/
def cfVerifyAt : Nat := 5

/-- Padding, bits 21..23 (R81). -/
def cfPadAt : Nat := 21

/-- The four fields of R81 as pairs of offset and width. -/
def controlFields : List (Nat × Nat) :=
  [(cfModeAt, Config.cfModeW), (cfUnitAt, Config.cfUnitW), (cfVerifyAt, Config.cfVerifyW),
    (cfPadAt, Config.cfPadW)]

end Sys2Proof.Machine
end

