-- ==== Sys2Proof/Machine/Operands.lean ====
section
/-! DEFINITION. Where an edge's inputs come from: the sampling of the ports (R33, R243, R250) and the kind of
edge they make (R213, R240, R243). -/

namespace Sys2Proof.Machine

/-- The host will drive `ps` at the coming edges, oldest first (R33, log 1). -/
def State.drive (ps : List Ports) (s : State) : State := { s with upcoming := ps }

/-- The port values at edge number `n` when the state lists none: free values (log 2). -/
def freePorts (n : Nat) : Ports :=
  { lpIn := { instrumentType := InstrumentType.ofBit (Config.freeLpType n),
              pwmLevels := Vector.ofFn (fun i => Config.freeLpLevel n i.val),
              memoryIndex := Config.freeLpMemoryIndex n,
              fadeTimeMs := Config.freeLpFade n, treeMask := Config.freeLpMask n },
    wfIn := Config.freeWf n, cfIn := Config.freeCf n,
    rst := Config.freeRst n, reqValid := Config.freeReqValid n, reqOp := Config.freeReqOp n }

/-- The values sampled at this edge (R33, R250). -/
def sampledPorts (s : State) : Ports :=
  match s.upcoming with
  | p :: _ => p
  | [] => freePorts s.edges

/-- The edge is past: its inputs are used up and it is counted (R250, R251). -/
def passEdge (s : State) : State := { s with upcoming := s.upcoming.tail, edges := s.edges + 1 }

/-- The three kinds of rising edge of R243. -/
inductive EdgeKind where
  | reset
  | idle
  | accept (r : Request)
  deriving DecidableEq, Repr

/-- R243: reset before anything else (R213), then idle, else the request on the ports is accepted. -/
def edgeKind (p : Ports) : EdgeKind :=
  if p.rst = 1 then .reset
  else if p.reqValid = 0 then .idle
  else .accept p.request

end Sys2Proof.Machine
end

