-- ==== Sys2Proof/Machine/Control.lean ====
section
/-! DEFINITION. CFVERIFY and CFDEF, and the ControlFrame a host composes (spec/45_control_frame.md). -/

namespace Sys2Proof.Machine

/-- R190: the verdict on a ControlFrame, `cf_in[20:5] == 0x0E76`. Nothing else of it is read (R191). -/
def verify (C : ControlFrame) : Bit :=
  BitVec.ofBool (fld C cfVerifyAt Config.cfVerifyW == Config.cfVerifyConst)

/-- R196, R81: the 24-bit value of a valid ControlFrame, `0b000 ++ 0x0E76 ++ unitId ++ mode`. -/
def composeControl (mode : BitVec Config.cfModeW) (unitId : BitVec Config.cfUnitW) : ControlFrame :=
  (0 : BitVec Config.cfPadW) ++ Config.cfVerifyConst ++ unitId ++ mode

/-- R192: the default ControlFrame: mode, unit id and padding 0, the verification constant in place. -/
def defaultCf : ControlFrame := composeControl 0 0

/-! ## The meanings -/

/-- CFVERIFY (R190, R243): `RES_OK` and STATUS. -/
def execCfverify (cf : ControlFrame) (s : State) : Host.Outcome State Fault Refusal :=
  .next (completeLegal 0b010 (writeOk (verify cf) s))

/-- CFDEF (R192, R243): `RES_CF` and STATUS. -/
def execCfdef (s : State) : Host.Outcome State Fault Refusal :=
  .next (completeLegal 0b101 (writeCf defaultCf s))

end Sys2Proof.Machine
end

