-- ==== Sys2Proof/Machine/MaskCodec.lean ====
section
/-! DEFINITION. The tree-mask encoder and decoder (spec/43_tree_mask.md). -/

namespace Sys2Proof.Machine

/-- The three wire sub-fields of a tree mask (R141, R148). -/
structure AddressFields where
  /-- `lowAddressMask`, mask bits 4..0. -/
  low : BitVec Config.lowMaskW
  /-- `highAddressBit`, mask bit 5. -/
  high : Bit
  /-- `allUnitsFlag`. -/
  all : Bit
  deriving DecidableEq, Repr

/-- R141, R142: the low and high bits are stored whatever the flag is; the flag is set for 0xFF alone. -/
def maskEncode (m : TreeMask) : AddressFields :=
  { low := fld m 0 Config.lowMaskW, high := fld m 5 1, all := BitVec.ofBool (m == Config.allUnits) }

/-- R144, R145: the flag selects between 0xFF and the reassembled low and high bits. -/
def maskDecode (a : AddressFields) : TreeMask :=
  if a.all = 1 then Config.allUnits
  else a.low.setWidth Config.maskW ||| (a.high.setWidth Config.maskW <<< 5)

end Sys2Proof.Machine
end

