-- ==== Sys2Proof/Machine/Quantizer.lean ====
section
/-! DEFINITION. The quantizer (spec/41_quantizer.md): two stateless functions, applied lane by lane. -/

namespace Sys2Proof.Machine

/-- R100: the top 3 bits of the level, `level[7:5]`. -/
def quantize (level : Level) : LevelCode := fld level 5 Config.codeW

/-- R101: `(code << 5) | (code << 2) | (code >> 1)`, computed at 8 bits. -/
def dequantize (code : LevelCode) : Level :=
  let c : Level := code.setWidth Config.levelW
  (c <<< 5) ||| (c <<< 2) ||| (c >>> 1)

end Sys2Proof.Machine
end

