-- ==== Sys2Proof/Machine/TimeCodec.lean ====
section
/-! DEFINITION. The time codec (spec/42_time_codec.md): two stateless functions, for a logical fade time of
any width `W` (R10, R120, R121); the block uses them at `FADE_MS_W` (log 11). -/

namespace Sys2Proof.Machine

/-- R120: `min(255, ms / 100)`, the comparison made on the full quotient. -/
def encodeTime {W : Nat} (ms : BitVec W) : FadeCode :=
  BitVec.ofNat Config.fadeCodeW (min Config.fadeCodeMax (ms.toNat / Config.timeStepMs))

/-- R121: `code * 100`, at the width of the logical fade time. -/
def decodeTime (W : Nat) (code : FadeCode) : BitVec W :=
  BitVec.ofNat W (code.toNat * Config.timeStepMs)

end Sys2Proof.Machine
end

