-- ==== Sys2Proof/Machine/Pack.lean ====
section
/-! DEFINITION. PACK, UNPACK, LPDEF and WFDEF (spec/44_pack_unpack.md). -/

namespace Sys2Proof.Machine

/-- The code PACK stores for one level. For a Memory-type packet this is `MEMORY_MODE_POLICY`'s choice
(R161, log 12). -/
def packedCode (t : InstrumentType) (level : Level) : LevelCode :=
  match t, Config.memoryModePolicy with
  | .dimmer, _ => quantize level
  | .memory, .quantizeLevels => quantize level

/-- R160 step 2, R104: each lane's code goes into the lane's own field, for both instrument types. -/
def insLevels (lp : LightingPacket) (F : WireFrame) : WireFrame :=
  (List.finRange Config.nLevels).foldl
    (fun G i => ins G (off i) Config.codeW (packedCode lp.instrumentType lp.pwmLevels[i])) F

/-- R160 step 4: the three address sub-fields (R141, R148). -/
def insAddress (a : AddressFields) (F : WireFrame) : WireFrame :=
  ins (ins (ins F lowMaskAt Config.lowMaskW a.low) highAddressAt 1 a.high) allUnitsAt 1 a.all

/-- R160: the WireFrame of a LightingPacket, built from all zeros. `memory_index` is not read (R162). -/
def pack (lp : LightingPacket) : WireFrame :=
  let F : WireFrame := 0
  let F := ins F typeAt 1 lp.instrumentType.toBit
  let F := insLevels lp F
  let F := ins F fadeCodeAt Config.fadeCodeW (encodeTime lp.fadeTimeMs)
  insAddress (maskEncode lp.treeMask) F

/-- The address sub-fields of a frame (R144, R148). -/
def addressOf (F : WireFrame) : AddressFields :=
  { low := fld F lowMaskAt Config.lowMaskW, high := fld F highAddressAt 1, all := fld F allUnitsAt 1 }

/-- R163: the LightingPacket of a WireFrame. All 16 levels are written for both types (R165), and the
memory index is 0 (R164). -/
def unpack (F : WireFrame) : LightingPacket :=
  { treeMask := maskDecode (addressOf F),
    instrumentType := InstrumentType.ofBit (fld F typeAt 1),
    pwmLevels := Vector.ofFn (fun i => dequantize (fld F (off i) Config.codeW)),
    fadeTimeMs := decodeTime Config.fadeMsW (fld F fadeCodeAt Config.fadeCodeW),
    memoryIndex := 0 }

/-- R166: the default LightingPacket, every field 0. -/
def defaultLp : LightingPacket :=
  { instrumentType := InstrumentType.ofBit 0, pwmLevels := Vector.replicate Config.nLevels 0,
    memoryIndex := 0, fadeTimeMs := 0, treeMask := 0x00 }

/-- R167: the default WireFrame. -/
def defaultWf : WireFrame := 0x0000000000000000

/-! ## The meanings -/

/-- PACK (R160, R243): `RES_WF` and STATUS. -/
def execPack (lp : LightingPacket) (s : State) : Host.Outcome State Fault Refusal :=
  .next (completeLegal 0b000 (writeWf (pack lp) s))

/-- UNPACK (R163, R243): `RES_LP` and STATUS. -/
def execUnpack (wf : WireFrame) (s : State) : Host.Outcome State Fault Refusal :=
  .next (completeLegal 0b001 (writeLp (unpack wf) s))

/-- LPDEF (R166, R243): `RES_LP` and STATUS. -/
def execLpdef (s : State) : Host.Outcome State Fault Refusal :=
  .next (completeLegal 0b011 (writeLp defaultLp s))

/-- WFDEF (R167, R243): `RES_WF` and STATUS. -/
def execWfdef (s : State) : Host.Outcome State Fault Refusal :=
  .next (completeLegal 0b100 (writeWf defaultWf s))

end Sys2Proof.Machine
end

