-- ==== Sys2Proof/Machine/Reserved.lean ====
section
/-! DEFINITION. The two reserved operation codes (R73, R212, R215): each takes the illegal-request condition. -/

namespace Sys2Proof.Machine

/-- `req_op` = 0b110 (R212). -/
def execReserved110 (s : State) : Host.Outcome State Fault Refusal := .next (takeIllegal 0b110 s)

/-- `req_op` = 0b111 (R212). -/
def execReserved111 (s : State) : Host.Outcome State Fault Refusal := .next (takeIllegal 0b111 s)

end Sys2Proof.Machine
end

