-- ==== Sys2Proof/Machine/Dispatch.lean ====
section
/-! DEFINITION. The dispatch of an accepted request to its rule (R71, R87). -/

namespace Sys2Proof.Machine

/-- One arm for each operation of R71. -/
def exec (i : Instr) (s : State) : Host.Outcome State Fault Refusal :=
  match i with
  | .pack lp => Sys2Proof.Machine.execPack lp s
  | .unpack wf => Sys2Proof.Machine.execUnpack wf s
  | .cfverify cf => Sys2Proof.Machine.execCfverify cf s
  | .lpdef => Sys2Proof.Machine.execLpdef s
  | .wfdef => Sys2Proof.Machine.execWfdef s
  | .cfdef => Sys2Proof.Machine.execCfdef s
  | .reserved110 => Sys2Proof.Machine.execReserved110 s
  | .reserved111 => Sys2Proof.Machine.execReserved111 s

end Sys2Proof.Machine
end

