-- ==== Sys2Proof/Machine/Step.lean ====
section
/-! DEFINITION. One rising edge of `clk` (R8, R243). -/

namespace Sys2Proof.Machine

/-- R243: the inputs of the edge are sampled, then the block resets, idles, or performs the operation of the
request. -/
def step (s : State) : Host.Outcome State Fault Refusal :=
  match edgeKind (sampledPorts s) with
  | .reset => .next (resetEdge (passEdge s))
  | .idle => .next (idleEdge (passEdge s))
  | .accept r => exec (decode r) (passEdge s)

/-- `s` with the request of a table word on the ports at the coming edge; the values listed for later edges
stay (log 7). -/
def State.withFetchWord (s : State) (nbits w : Nat) : State :=
  { s with upcoming := Ports.ofRequest (Request.ofTableWord nbits w) :: s.upcoming.tail }

end Sys2Proof.Machine
end

