-- ==== Sys2Proof/Laws/PerInstr.lean ====
section
/-! SUPPORT. Statements for all instructions, one lemma for each constructor. -/

namespace Sys2Proof.Laws.RoundTrip

/-- The instruction is well-formed (R73, R79), and its request decodes to it whatever stands on the buses it
does not read (R72). -/
def Statement (i : Instr) : Prop :=
  i.wellFormed = true ∧ ∀ bg : Buses, decode (encodeOn bg i) = i

theorem pack (lp : LightingPacket) : Statement (.pack lp) := ⟨rfl, fun _ => rfl⟩
theorem unpack (wf : WireFrame) : Statement (.unpack wf) := ⟨rfl, fun _ => rfl⟩
theorem cfverify (cf : ControlFrame) : Statement (.cfverify cf) := ⟨rfl, fun _ => rfl⟩
theorem lpdef : Statement .lpdef := ⟨rfl, fun _ => rfl⟩
theorem wfdef : Statement .wfdef := ⟨rfl, fun _ => rfl⟩
theorem cfdef : Statement .cfdef := ⟨rfl, fun _ => rfl⟩
theorem reserved110 : Statement .reserved110 := ⟨rfl, fun _ => rfl⟩
theorem reserved111 : Statement .reserved111 := ⟨rfl, fun _ => rfl⟩

end Sys2Proof.Laws.RoundTrip
end

