-- ==== Sys2Proof/Machine/Assembler.lean ====
section
/-! DEFINITION. The assembler syntax of R86: each line is one clock edge. The numbers are as the line writes
them, so a line can be ill-formed; operands a line omits are don't-care and come from `bg` (log 16). -/

namespace Sys2Proof.Machine

/-- The lines of R86. -/
inductive Line where
  | reset
  | idle
  | pack (type : InstrumentType) (levels : List Nat) (mem fade mask : Nat)
  | unpack (wf : Nat)
  | cfverify (cf : Nat)
  | lpdef
  | wfdef
  | cfdef
  | op (code : Nat)
  deriving DecidableEq, Repr

/-- The ranges R86 writes beside the operands. -/
def lineWellFormed : Line → Bool
  | .reset => true
  | .idle => true
  | .pack _ levels mem fade mask =>
    WellFormed.levels levels && WellFormed.mem mem && WellFormed.fade fade && WellFormed.mask mask
  | .unpack wf => WellFormed.wf wf
  | .cfverify cf => WellFormed.cf cf
  | .lpdef => true
  | .wfdef => true
  | .cfdef => true
  | .op code => WellFormed.reservedCode code

/-- The LightingPacket a `PACK` line writes out. -/
def linePacket (type : InstrumentType) (levels : List Nat) (mem fade mask : Nat) : LightingPacket :=
  { instrumentType := type,
    pwmLevels := Vector.ofFn (fun i => BitVec.ofNat Config.levelW (levels.getD i.val 0)),
    memoryIndex := BitVec.ofNat Config.memIndexW mem,
    fadeTimeMs := BitVec.ofNat Config.fadeMsW fade,
    treeMask := BitVec.ofNat Config.maskW mask }

/-- The port values of a line's edge, with `bg` on every port the line leaves open (R72, R86, R240). -/
def linePorts (bg : Ports) : Line → Ports
  | .reset => { bg with rst := 1 }
  | .idle => { bg with rst := 0, reqValid := 0 }
  | .pack type levels mem fade mask =>
    Ports.ofRequest (encodeOn bg.toBuses (.pack (linePacket type levels mem fade mask)))
  | .unpack wf => Ports.ofRequest (encodeOn bg.toBuses (.unpack (BitVec.ofNat Config.frameW wf)))
  | .cfverify cf => Ports.ofRequest (encodeOn bg.toBuses (.cfverify (BitVec.ofNat Config.cfW cf)))
  | .lpdef => Ports.ofRequest (encodeOn bg.toBuses .lpdef)
  | .wfdef => Ports.ofRequest (encodeOn bg.toBuses .wfdef)
  | .cfdef => Ports.ofRequest (encodeOn bg.toBuses .cfdef)
  | .op code => Ports.ofRequest { toBuses := bg.toBuses, op := BitVec.ofNat Config.opW code }

/-- The port values of a well-formed line (R86). -/
def assemble (bg : Ports) (l : Line) : Option Ports :=
  if lineWellFormed l then some (linePorts bg l) else none

end Sys2Proof.Machine
end

