-- ==== Sys2Proof/Machine/Bytes.lean ====
section
/-! DEFINITION. The byte order of the two wire forms (R52, R53): what the host hands to and takes from the
transport (R224). -/

namespace Sys2Proof.Machine

/-- R52: `B[k] = F[8k+7 : 8k]` for k = 0..7, the first byte first. -/
def wireToBytes (F : WireFrame) : List Byte :=
  (List.range 8).map (fun k => fld F (8 * k) 8)

/-- R52: `F = B[7] ++ B[6] ++ ... ++ B[0]`. A frame of another length is the transport's concern (R224,
D22), and is refused here (log 17). -/
def wireOfBytes (bs : List Byte) : Except Refusal WireFrame :=
  match bs with
  | [b0, b1, b2, b3, b4, b5, b6, b7] => .ok (b7 ++ b6 ++ b5 ++ b4 ++ b3 ++ b2 ++ b1 ++ b0)
  | _ => .error .frameLength

/-- R53: `B[k] = C[8k+7 : 8k]` for k = 0..2, the first byte first. -/
def controlToBytes (C : ControlFrame) : List Byte :=
  (List.range 3).map (fun k => fld C (8 * k) 8)

/-- R53, the other way. A frame of another length is refused (R224, D22, log 17). -/
def controlOfBytes (bs : List Byte) : Except Refusal ControlFrame :=
  match bs with
  | [b0, b1, b2] => .ok (b2 ++ b1 ++ b0)
  | _ => .error .frameLength

end Sys2Proof.Machine
end

