-- ==== Sys2Proof/Machine/Contract.lean ====
section
/-! DEFINITION. What the data the block hands out means to a RECEIVER, as far as the spec says (R24, R82, R140,
R194, R195). The block evaluates none of this; where the spec gives data no meaning, a reading is refused by
name (U1, U2, U5, log 14). -/

namespace Sys2Proof.Machine

/-- R140: whether the mask `m` addresses a unit: `some n` is the unit numbered `n`, `none` a unit with no
assigned address. A number outside 1..6 is reached by 0xFF alone (C4, log 14). -/
def addresses (m : TreeMask) (unit : Option Nat) : Bool :=
  m == Config.allUnits ||
    match unit with
    | none => false
    | some n => decide (1 ≤ n) && decide (n ≤ Config.nUnits) && m.getLsbD (n - 1)

/-- R24: the levels mean something in a Dimmer packet only (U1, U2). -/
def activeLevels (lp : LightingPacket) : Except Refusal Levels :=
  match lp.instrumentType with
  | .dimmer => .ok lp.pwmLevels
  | .memory => .error .inactiveField

/-- R24: the memory index means something in a Memory packet only (U2). -/
def activeMemoryIndex (lp : LightingPacket) : Except Refusal MemoryIndex :=
  match lp.instrumentType with
  | .dimmer => .error .inactiveField
  | .memory => .ok lp.memoryIndex

/-- What a verified ControlFrame asks for (R82, R195). -/
inductive ControlMode where
  | setTreeId
  | idQueryMode
  deriving DecidableEq, Repr

/-- R82: 0 and 1 are assigned, 2 and 3 are not. -/
def ControlMode.ofBits (b : BitVec Config.cfModeW) : Option ControlMode :=
  match b with
  | 0#2 => some .setTreeId
  | 1#2 => some .idQueryMode
  | 2#2 => none
  | 3#2 => none

/-- The `mode` field of a ControlFrame (R81). -/
def controlMode (C : ControlFrame) : BitVec Config.cfModeW := fld C cfModeAt Config.cfModeW

/-- The `unitId` field of a ControlFrame (R81, R83). -/
def controlUnit (C : ControlFrame) : BitVec Config.cfUnitW := fld C cfUnitAt Config.cfUnitW

/-- R194: a receiver uses `mode` and `unitId` of a frame only with the verdict 1 of that same frame, and gives
the modes 2 and 3 no meaning (U5). -/
def receiveControl (verdict : Bit) (C : ControlFrame) :
    Except Refusal (ControlMode × BitVec Config.cfUnitW) :=
  if verdict = 1 then
    match ControlMode.ofBits (controlMode C) with
    | some m => .ok (m, controlUnit C)
    | none => .error .unassignedMode
  else .error .unverifiedFrame

end Sys2Proof.Machine
end

