-- ==== Sys2Proof/Safety.lean ====
section
/-! DEFINITION. What the claims are stated in: running the block over a list of edges, what each register
should hold by the history of those edges alone (R57, R247, R249), the duties of the host (R224), and the
invariant of the block's registers. -/

namespace Sys2Proof.Machine

/-! ## Running -/

/-- `k` edges, one step each, stopping where a step stops. -/
def runSteps : Nat → State → Host.Outcome State Fault Refusal
  | 0, s => .next s
  | k + 1, s =>
    match step s with
    | .next t => runSteps k t
    | .fault f => .fault f
    | .refused r => .refused r

/-- The block from `s` over the edges at which the host drives `ps`, one step each (R57). -/
def runOver (ps : List Ports) (s : State) : Host.Outcome State Fault Refusal :=
  runSteps ps.length (s.drive ps)

/-! ## History: the latest writer of each register (R29, R247) -/

/-- What an edge writes to `RES_WF`, if it writes it (R29, R240). -/
def wfWritten (p : Ports) : Option WireFrame :=
  match edgeKind p with
  | .reset => some 0
  | .idle => none
  | .accept r =>
    match r.op with
    | 0b000#3 => some (pack r.lpIn)
    | 0b100#3 => some 0
    | _ => none

/-- What an edge writes to `RES_LP`, if it writes it (R29, R240). -/
def lpWritten (p : Ports) : Option LightingPacket :=
  match edgeKind p with
  | .reset => some defaultLp
  | .idle => none
  | .accept r =>
    match r.op with
    | 0b001#3 => some (unpack r.wfIn)
    | 0b011#3 => some defaultLp
    | _ => none

/-- What an edge writes to `RES_CF`, if it writes it (R29, R240). -/
def cfWritten (p : Ports) : Option ControlFrame :=
  match edgeKind p with
  | .reset => some 0x01CEC0
  | .idle => none
  | .accept r => if r.op = 0b101 then some 0x01CEC0 else none

/-- What an edge writes to `RES_OK`, if it writes it (R29, R190, R240). -/
def okWritten (p : Ports) : Option Bit :=
  match edgeKind p with
  | .reset => some 0
  | .idle => none
  | .accept r => if r.op = 0b010 then some (verify r.cfIn) else none

/-- What an edge makes of `LAST_OP` and `ILLEGAL`, if it writes them (R27, R243). -/
def requestWritten (p : Ports) : Option (OpCode × Bit) :=
  match edgeKind p with
  | .reset => some (0, 0)
  | .idle => none
  | .accept r => some (r.op, BitVec.ofBool (r.op == 0b110 || r.op == 0b111))

/-- The latest of the values the edges `ps` write, or `old` if none writes one (R247). -/
def latest {α : Type} (w : Ports → Option α) (ps : List Ports) (old : α) : α :=
  (ps.reverse.findSome? w).getD old

/-! ## The host's duties and safe use (R224) -/

/-- R242: the first edge is a reset edge. -/
def Booted (ps : List Ports) : Prop := ∃ p rest, ps = p :: rest ∧ p.rst = 1

/-- The frame judged by the latest CFVERIFY since the latest reset (R249): what `RES_OK` speaks of. -/
def judgedFrame : List Ports → Option ControlFrame
  | [] => none
  | p :: ps =>
    match judgedFrame ps with
    | some c => some c
    | none =>
      if ps.any (fun q => q.rst = 1) then none
      else if edgeKind p = .accept p.request ∧ p.reqOp = 0b010 then some p.cfIn else none

/-- R194, R249: after the edges `ps`, the host may act on `mode` and `unitId` of the frame `C`. -/
def MayAct (ps : List Ports) (C : ControlFrame) : Prop :=
  judgedFrame ps = some C ∧ verify C = 1

/-- The strict read of each of the five outputs faults (R28, R32, U9, log 6). -/
def StrictReadsFault (s : State) : Prop :=
  strictRead lpOut s = .error .readBeforeReset ∧ strictRead wfOut s = .error .readBeforeReset ∧
  strictRead cfOut s = .error .readBeforeReset ∧ strictRead okOut s = .error .readBeforeReset ∧
  strictRead statusOut s = .error .readBeforeReset

/-- The strict read of each of the five outputs answers its register (R28, log 6). -/
def StrictReadsAnswer (s : State) : Prop :=
  strictRead lpOut s = .ok s.resLp ∧ strictRead wfOut s = .ok s.resWf ∧ strictRead cfOut s = .ok s.resCf ∧
  strictRead okOut s = .ok s.resOk ∧ strictRead statusOut s = .ok s.status

/-- An edge that accepts a reserved code (R212). -/
def acceptsReserved (p : Ports) : Bool :=
  match edgeKind p with
  | .accept r => r.op == 0b110 || r.op == 0b111
  | _ => false

/-- A run that never misuses the request port: its first edge is a reset (R242) and no edge accepts a
reserved code (R212). -/
def SafeRun (ps : List Ports) : Prop := Booted ps ∧ ∀ p ∈ ps, acceptsReserved p = false

/-! ## The invariant of the registers -/

/-- The levels `dequantize` answers (R102). -/
def levelTable : List Level := [0, 36, 73, 109, 146, 182, 219, 255]

/-- A LightingPacket as UNPACK and LPDEF leave it: levels of R102, a fade of R121, a mask of R147, a memory
index of 0 (R164). -/
structure DecodedPacket (lp : LightingPacket) : Prop where
  levels : ∀ i : Lane, lp.pwmLevels[i] ∈ levelTable
  memoryIndex : lp.memoryIndex = 0
  fadeStep : lp.fadeTimeMs.toNat % Config.timeStepMs = 0
  fadeMax : lp.fadeTimeMs.toNat ≤ Config.fadeMsMax
  mask : lp.treeMask.toNat < 64 ∨ lp.treeMask = Config.allUnits

/-- A WireFrame as PACK and WFDEF leave it: with the all-units flag, the address bits are ones (R142). -/
def NormalFrame (F : WireFrame) : Prop :=
  fld F 16 1 = 1 → fld F 47 1 = 1 ∧ fld F 51 5 = 0b11111

/-- What holds of the registers after a reset and after every edge since (R26, R27, R102, R121, R142, R147,
R164, R192, R212). The last three clauses speak of the model's own fields (log 4, log 6). -/
structure RegInv (s : State) : Prop where
  lp : DecodedPacket s.resLp
  wf : NormalFrame s.resWf
  cf : s.resCf = 0x01CEC0
  illegal : statusIllegal s.status = 1 ↔ (statusLastOp s.status = 0b110 ∨ statusLastOp s.status = 0b111)
  recorded : statusIllegal s.status = 1 → s.requestFault ≠ none
  record : ∀ c, s.requestFault = some c → c = 0b110 ∨ c = 0b111
  seen : s.resetSeen = true

end Sys2Proof.Machine
end

