-- ==== Sys2Proof/Certificates/Slice0/Obligations.lean ====
section
/-! DEFINITION. The statements for the provers. Bits of frames are read with `extractLsb'` and `getLsbD`, so that a
statement says where a field stands in its own words; `off` is R77's table, which `LevelOffsetsFollowTheTable`
states. No statement rests on the value of a free value. -/

open Sys2Proof Sys2Proof.Machine

/-! ## The requests and their dispatch -/

/-- R71, R87: each of the eight codes selects its operation, with the operand on the bus R71 names. -/
def Obligations.CodesSelectTheirOperations : Prop :=
  ∀ b : Buses,
    decode { toBuses := b, op := 0b000 } = .pack b.lpIn ∧
    decode { toBuses := b, op := 0b001 } = .unpack b.wfIn ∧
    decode { toBuses := b, op := 0b010 } = .cfverify b.cfIn ∧
    decode { toBuses := b, op := 0b011 } = .lpdef ∧
    decode { toBuses := b, op := 0b100 } = .wfdef ∧
    decode { toBuses := b, op := 0b101 } = .cfdef ∧
    decode { toBuses := b, op := 0b110 } = .reserved110 ∧
    decode { toBuses := b, op := 0b111 } = .reserved111

/-- The words of spec/opcode_table.json decode to their rows. The zero operand buses are log 7's. -/
def Obligations.TableWordsDecodeToTheirRows : Prop :=
  decodeTableWord 8 0b000 = some (.pack Buses.zero.lpIn) ∧ decodeTableWord 8 0b001 = some (.unpack 0) ∧
  decodeTableWord 8 0b010 = some (.cfverify 0) ∧ decodeTableWord 8 0b011 = some .lpdef ∧
  decodeTableWord 8 0b100 = some .wfdef ∧ decodeTableWord 8 0b101 = some .cfdef ∧
  decodeTableWord 8 0b110 = some .reserved110 ∧ decodeTableWord 8 0b111 = some .reserved111

/-- Requests round-trip both ways (R71, R72): the request of an operation decodes to it over any values of the
buses it does not read, and a request is the request of what it decodes to, over its own buses. -/
def Obligations.RequestsRoundTrip : Prop :=
  (∀ (i : Instr) (bg : Buses), i.wellFormed = true ∧ decode (encodeOn bg i) = i) ∧
  (∀ r : Request, encodeOn r.toBuses (decode r) = r)

/-- R72: an operation reads only the operand bus R71 names; the values of the other two have no effect on any
state. -/
def Obligations.UnnamedBusesHaveNoEffect : Prop :=
  ∀ (p q : Ports) (ps : List Ports) (s : State),
    p.rst = q.rst → p.reqValid = q.reqValid → p.reqOp = q.reqOp →
    (p.reqOp = 0b000 → p.lpIn = q.lpIn) → (p.reqOp = 0b001 → p.wfIn = q.wfIn) →
    (p.reqOp = 0b010 → p.cfIn = q.cfIn) →
    step (s.drive (p :: ps)) = step (s.drive (q :: ps))

/-! ## The edge -/

/-- A step at an accepting edge runs the decoded instruction, after the edge's inputs are used up and the edge
is counted (log 1, log 3). -/
def Obligations.AcceptingEdgeRunsTheDecodedRequest : Prop :=
  ∀ s : State, (sampledPorts s).rst = 0 → (sampledPorts s).reqValid = 1 →
    (decode (sampledPorts s).request).wellFormed = true ∧
    step s = exec (decode (sampledPorts s).request)
      { s with upcoming := s.upcoming.tail, edges := s.edges + 1 }

/-- The host's table word on the ports is the instruction the next step runs (log 7). -/
def Obligations.FetchWordRunsAtTheNextEdge : Prop :=
  ∀ (s : State) (nbits w : Nat), ∃ i, decodeTableWord nbits w = some i ∧
    step (s.withFetchWord nbits w) = exec i { s with upcoming := s.upcoming.tail, edges := s.edges + 1 }

/-- R243: the block's step function, whole. -/
def Obligations.EdgeFollowsTheStepFunction : Prop :=
  ∀ (p : Ports) (ps : List Ports) (s : State), ∃ t, step (s.drive (p :: ps)) = .next t ∧
    (p.rst = 1 → t.resLp = State.reset.resLp ∧ t.resWf = 0 ∧ t.resCf = 0x01CEC0 ∧ t.resOk = 0 ∧ t.status = 0) ∧
    (p.rst = 0 → p.reqValid = 0 →
      t.resLp = s.resLp ∧ t.resWf = s.resWf ∧ t.resCf = s.resCf ∧ t.resOk = s.resOk ∧
      statusValid t.status = 0 ∧ statusIllegal t.status = statusIllegal s.status ∧
      statusLastOp t.status = statusLastOp s.status) ∧
    (p.rst = 0 → p.reqValid = 1 →
      t.resWf = (if p.reqOp = 0b000 then pack p.lpIn else if p.reqOp = 0b100 then 0 else s.resWf) ∧
      t.resLp = (if p.reqOp = 0b001 then unpack p.wfIn
        else if p.reqOp = 0b011 then defaultLp else s.resLp) ∧
      t.resOk = (if p.reqOp = 0b010 then
        (if p.cfIn.extractLsb' 5 16 = 0x0E76 then 1 else 0) else s.resOk) ∧
      t.resCf = (if p.reqOp = 0b101 then 0x01CEC0 else s.resCf) ∧
      statusValid t.status = 1 ∧
      statusIllegal t.status = (if p.reqOp = 0b110 ∨ p.reqOp = 0b111 then 1 else 0) ∧
      statusLastOp t.status = p.reqOp)

/-- R240, R31: at a reset edge every state element takes its reset value, whatever the state was and whatever the
request ports hold. -/
def Obligations.ResetEdgeTakesTheResetValues : Prop :=
  ∀ (p : Ports) (ps : List Ports) (s : State), p.rst = 1 → ∃ t, step (s.drive (p :: ps)) = .next t ∧
    t.resLp.instrumentType = .dimmer ∧ (∀ i : Lane, t.resLp.pwmLevels[i] = 0) ∧ t.resLp.memoryIndex = 0 ∧
    t.resLp.fadeTimeMs = 0 ∧ t.resLp.treeMask = 0x00 ∧
    t.resWf = 0x0000000000000000 ∧ t.resCf = 0x01CEC0 ∧ t.resOk = 0 ∧
    statusValid t.status = 0 ∧ statusIllegal t.status = 0 ∧ statusLastOp t.status = 0b000

/-- R241: right after reset the frame registers hold what default construction writes, and CFVERIFY of `cf_out`
gives 1. -/
def Obligations.ResetEqualsDefaultConstruction : Prop :=
  ∀ s : State, ∃ t u v w, exec .lpdef s = .next t ∧ State.reset.resLp = t.resLp ∧
    exec .wfdef s = .next u ∧ State.reset.resWf = u.resWf ∧
    exec .cfdef s = .next v ∧ State.reset.resCf = v.resCf ∧
    exec (.cfverify (cfOut State.reset)) State.reset = .next w ∧ w.resOk = 1

/-- R245: an idle edge never changes a result register, `ILLEGAL` or `LAST_OP`; any number of them may pass. -/
def Obligations.IdleEdgesChangeValidAlone : Prop :=
  ∀ (ps : List Ports) (s : State), (∀ p ∈ ps, p.rst = 0 ∧ p.reqValid = 0) → ∃ t, runOver ps s = .next t ∧
    t.resLp = s.resLp ∧ t.resWf = s.resWf ∧ t.resCf = s.resCf ∧ t.resOk = s.resOk ∧
    statusIllegal t.status = statusIllegal s.status ∧ statusLastOp t.status = statusLastOp s.status ∧
    (ps ≠ [] → statusValid t.status = 0)

/-- R248: after any run, `VALID` is 1 if the last edge accepted a request and 0 if it idled (or reset, R31);
`ILLEGAL` and `LAST_OP` hold across an idle edge. -/
def Obligations.ValidPulsesAfterAcceptingEdges : Prop :=
  ∀ (ps : List Ports) (p : Ports) (s : State), ∃ t, runOver (ps ++ [p]) s = .next t ∧
    (statusValid t.status = 1 ↔ p.rst = 0 ∧ p.reqValid = 1) ∧
    (p.rst = 0 → p.reqValid = 0 → ∃ u, runOver ps s = .next u ∧
      statusIllegal t.status = statusIllegal u.status ∧ statusLastOp t.status = statusLastOp u.status)

/-- The model's own fields at every edge (log 1, log 3, log 4, log 6): the inputs advance, the edge is counted,
a reset edge clears the fault record and is seen, and a reserved code enters an empty record. -/
def Obligations.EdgeKeepsTheModelFields : Prop :=
  ∀ (p : Ports) (ps : List Ports) (s : State), ∃ t, step (s.drive (p :: ps)) = .next t ∧
    t.upcoming = ps ∧ t.edges = s.edges + 1 ∧
    t.resetSeen = (if p.rst = 1 then true else s.resetSeen) ∧
    t.requestFault = (if p.rst = 1 then none
      else if p.reqValid = 1 ∧ (p.reqOp = 0b110 ∨ p.reqOp = 0b111) ∧ s.requestFault = none then some p.reqOp
      else s.requestFault)

/-! ## PACK -/

/-- R160, R161: PACK completes on every packet, of either type, and writes `RES_WF` field by field. -/
def Obligations.PackWritesTheWireFrame : Prop :=
  ∀ (lp : LightingPacket) (s : State), ∃ t, exec (.pack lp) s = .next t ∧
    (t.resWf.extractLsb' 0 1 = 1 ↔ lp.instrumentType = .memory) ∧
    (∀ i : Lane, (t.resWf.extractLsb' (off i) 3).toNat = lp.pwmLevels[i].toNat / 32) ∧
    (t.resWf.extractLsb' 56 8).toNat = min 255 (lp.fadeTimeMs.toNat / 100) ∧
    (t.resWf.extractLsb' 51 5).toNat = lp.treeMask.toNat % 32 ∧
    t.resWf.extractLsb' 47 1 = lp.treeMask.extractLsb' 5 1 ∧
    (t.resWf.extractLsb' 16 1 = 1 ↔ lp.treeMask = 0xFF) ∧
    t.status = 0b00001 ∧
    t.resLp = s.resLp ∧ t.resCf = s.resCf ∧ t.resOk = s.resOk

/-- R162: two packets that differ only in `memory_index` pack to the same frame. -/
def Obligations.PackIgnoresTheMemoryIndex : Prop :=
  ∀ (lp : LightingPacket) (m : MemoryIndex) (s : State), ∃ t, exec (.pack lp) s = .next t ∧
    exec (.pack { lp with memoryIndex := m }) s = .next t

/-- R161: under `QUANTIZE_LEVELS` a Memory-type packet, whatever its memory index, packs to the frame of the Dimmer
packet with the same other fields, but for bit 0. -/
def Obligations.MemoryModeQuantizesLikeDimmer : Prop :=
  ∀ (lp : LightingPacket) (m : MemoryIndex) (s : State), ∃ t u,
    exec (.pack { lp with instrumentType := .memory, memoryIndex := m }) s = .next t ∧
    exec (.pack { lp with instrumentType := .dimmer }) s = .next u ∧
    t.resWf = u.resWf ||| 1 ∧ u.resWf.getLsbD 0 = false

/-- R104: lane `i` of PACK quantizes level `i` into its own field, lane `i` of UNPACK dequantizes that field into
level `i`, for both instrument types; each depends on lane `i` of its operand alone. -/
def Obligations.LanesDoNotInteract : Prop :=
  ∀ (i : Lane) (s : State),
    (∀ p : LightingPacket, ∃ t, exec (.pack p) s = .next t ∧
      t.resWf.extractLsb' (off i) 3 = quantize p.pwmLevels[i]) ∧
    (∀ F : WireFrame, ∃ t, exec (.unpack F) s = .next t ∧
      t.resLp.pwmLevels[i] = dequantize (F.extractLsb' (off i) 3)) ∧
    (∀ p q : LightingPacket, p.pwmLevels[i] = q.pwmLevels[i] → ∃ t u, exec (.pack p) s = .next t ∧
      exec (.pack q) s = .next u ∧ t.resWf.extractLsb' (off i) 3 = u.resWf.extractLsb' (off i) 3) ∧
    (∀ F G : WireFrame, F.extractLsb' (off i) 3 = G.extractLsb' (off i) 3 → ∃ t u,
      exec (.unpack F) s = .next t ∧ exec (.unpack G) s = .next u ∧ t.resLp.pwmLevels[i] = u.resLp.pwmLevels[i])

/-! ## UNPACK -/

/-- R163, R164, R165: UNPACK completes on every 64-bit value and writes all five fields of `RES_LP`. -/
def Obligations.UnpackWritesThePacket : Prop :=
  ∀ (F : WireFrame) (s : State), ∃ t, exec (.unpack F) s = .next t ∧
    t.resLp.treeMask.toNat = (if F.getLsbD 16 then 0xFF
      else (F.extractLsb' 51 5).toNat + 32 * (F.extractLsb' 47 1).toNat) ∧
    t.resLp.instrumentType = (if F.getLsbD 0 then .memory else .dimmer) ∧
    (∀ i : Lane, t.resLp.pwmLevels[i].toNat =
      32 * (F.extractLsb' (off i) 3).toNat + 4 * (F.extractLsb' (off i) 3).toNat +
        (F.extractLsb' (off i) 3).toNat / 2) ∧
    t.resLp.fadeTimeMs.toNat = 100 * (F.extractLsb' 56 8).toNat ∧
    t.resLp.memoryIndex = 0 ∧
    t.status = 0b00101 ∧
    t.resWf = s.resWf ∧ t.resCf = s.resCf ∧ t.resOk = s.resOk

/-- R80, R145: with bit 16 set, UNPACK's result is the same for every value of bits 47 and 51..55, and its mask is
0xFF. -/
def Obligations.UnpackIgnoresStaleAddressBits : Prop :=
  ∀ (F G : WireFrame) (s : State), F.getLsbD 16 = true →
    (∀ b, b ≠ 47 → ¬(51 ≤ b ∧ b ≤ 55) → F.getLsbD b = G.getLsbD b) →
    ∃ t, exec (.unpack F) s = .next t ∧ exec (.unpack G) s = .next t ∧ t.resLp.treeMask = 0xFF

/-- R147: UNPACK never writes a tree mask in 0x40..0xFE, and writes every other mask for some frame. -/
def Obligations.UnpackedMasksAreInRange : Prop :=
  (∀ (F : WireFrame) (s : State), ∃ t, exec (.unpack F) s = .next t ∧
    ¬(0x40 ≤ t.resLp.treeMask.toNat ∧ t.resLp.treeMask.toNat ≤ 0xFE)) ∧
  (∀ (m : TreeMask) (s : State), (m.toNat ≤ 0x3F ∨ m = 0xFF) →
    ∃ F t, exec (.unpack F) s = .next t ∧ t.resLp.treeMask = m)

/-! ## Default construction -/

/-- R166: LPDEF completes and writes zero to every field of `RES_LP`. -/
def Obligations.LpdefWritesTheDefaultPacket : Prop :=
  ∀ s : State, ∃ t, exec .lpdef s = .next t ∧
    t.resLp.instrumentType = .dimmer ∧ (∀ i : Lane, t.resLp.pwmLevels[i] = 0) ∧ t.resLp.memoryIndex = 0 ∧
    t.resLp.fadeTimeMs = 0 ∧ t.resLp.treeMask = 0x00 ∧ t.resLp = unpack 0 ∧
    t.status = 0b01101 ∧
    t.resWf = s.resWf ∧ t.resCf = s.resCf ∧ t.resOk = s.resOk

/-- R167: WFDEF completes and writes zero to `RES_WF`, which is PACK of the default packet. -/
def Obligations.WfdefWritesTheDefaultFrame : Prop :=
  ∀ s : State, ∃ t, exec .wfdef s = .next t ∧
    t.resWf = 0x0000000000000000 ∧ t.resWf = pack defaultLp ∧
    t.status = 0b10001 ∧
    t.resLp = s.resLp ∧ t.resCf = s.resCf ∧ t.resOk = s.resOk

/-- R192: CFDEF completes and writes 0x01CEC0 to `RES_CF`, a frame that CFVERIFY passes. -/
def Obligations.CfdefWritesTheDefaultControlFrame : Prop :=
  ∀ s : State, ∃ t u, exec .cfdef s = .next t ∧
    t.resCf = 0x01CEC0 ∧ controlToBytes t.resCf = [0xC0, 0xCE, 0x01] ∧
    t.status = 0b10101 ∧
    t.resLp = s.resLp ∧ t.resWf = s.resWf ∧ t.resOk = s.resOk ∧
    exec (.cfverify t.resCf) t = .next u ∧ u.resOk = 1

/-! ## CFVERIFY -/

/-- R190, R191: CFVERIFY completes on every 24-bit value; the verdict is 1 exactly when bits 20..5 are 0x0E76,
whatever the other bits are. -/
def Obligations.CfverifyWritesTheVerdict : Prop :=
  ∀ (C : ControlFrame) (s : State), ∃ t, exec (.cfverify C) s = .next t ∧
    t.resOk = (if C.extractLsb' 5 16 = 0x0E76 then 1 else 0) ∧
    t.status = 0b01001 ∧
    t.resLp = s.resLp ∧ t.resWf = s.resWf ∧ t.resCf = s.resCf

/-- R193: 256 of the 2^24 values pass. -/
def Obligations.TwoHundredFiftySixFramesPass : Prop :=
  ((Finset.range (2 ^ 24)).filter (fun n => verify (BitVec.ofNat 24 n) = 1)).card = 256

/-- R196, R81: the frame a host composes holds its mode and unit id where R81 puts them, with padding 0, and
CFVERIFY passes it. -/
def Obligations.ComposedControlFramesPass : Prop :=
  ∀ (mode : BitVec 2) (unitId : BitVec 3) (s : State), ∃ t,
    exec (.cfverify (composeControl mode unitId)) s = .next t ∧ t.resOk = 1 ∧
    (composeControl mode unitId).extractLsb' 0 2 = mode ∧
    (composeControl mode unitId).extractLsb' 2 3 = unitId ∧
    (composeControl mode unitId).extractLsb' 21 3 = 0

/-- R194, R82: a receiver gets mode and unit id only of a frame with the verdict 1 and an assigned mode. The
refusals by name are the model's (log 14). -/
def Obligations.ReceiverActsOnVerifiedFramesOnly : Prop :=
  ∀ (C : ControlFrame) (s : State), ∃ t, exec (.cfverify C) s = .next t ∧
    ∀ m u, receiveControl t.resOk C = .ok (m, u) ↔
      C.extractLsb' 5 16 = 0x0E76 ∧ C.extractLsb' 2 3 = u ∧
        ((C.extractLsb' 0 2 = 0 ∧ m = .setTreeId) ∨ (C.extractLsb' 0 2 = 1 ∧ m = .idQueryMode))

/-! ## The reserved codes -/

/-- R212: a reserved code completes with `VALID` 1, `ILLEGAL` 1 and the code in `LAST_OP`; no result register
changes, and the model's fault record is set. That a reserved code is a next state is log 5 (DEDUCED), and the
record `requestFault` is log 4 (DESIGN CHOICE). -/
def Obligations.ReservedCodesRecordTheCondition : Prop :=
  ∀ s : State, ∃ t u, exec .reserved110 s = .next t ∧ exec .reserved111 s = .next u ∧
    (statusValid t.status = 1 ∧ statusIllegal t.status = 1 ∧ statusLastOp t.status = 0b110) ∧
    (statusValid u.status = 1 ∧ statusIllegal u.status = 1 ∧ statusLastOp u.status = 0b111) ∧
    (t.resLp = s.resLp ∧ t.resWf = s.resWf ∧ t.resCf = s.resCf ∧ t.resOk = s.resOk) ∧
    (u.resLp = s.resLp ∧ u.resWf = s.resWf ∧ u.resCf = s.resCf ∧ u.resOk = s.resOk) ∧
    t.requestFault ≠ none ∧ u.requestFault ≠ none

/-- R215: `ILLEGAL` is cleared by the next accepted legal request or by reset; a second reserved code leaves it
1 and records the new code. -/
def Obligations.IllegalIsClearedByLegalRequestOrReset : Prop :=
  ∀ (p : Ports) (ps : List Ports) (s : State), statusIllegal s.status = 1 →
    ∃ t, step (s.drive (p :: ps)) = .next t ∧
      (statusIllegal t.status = 0 ↔
        p.rst = 1 ∨ (p.reqValid = 1 ∧ p.reqOp ≠ 0b110 ∧ p.reqOp ≠ 0b111)) ∧
      (p.rst = 0 → p.reqValid = 1 → (p.reqOp = 0b110 ∨ p.reqOp = 0b111) →
        statusIllegal t.status = 1 ∧ statusLastOp t.status = p.reqOp)

/-! ## STATUS, write sets, dependence -/

/-- R27: STATUS read as one value is `LAST_OP ++ ILLEGAL ++ VALID`: bit 0 is `VALID`, bit 1 `ILLEGAL`, bits 4:2
`LAST_OP`. -/
def Obligations.StatusReadsAsItsFields : Prop :=
  ∀ st : StatusWord,
    st.toNat = 4 * (statusLastOp st).toNat + 2 * (statusIllegal st).toNat + (statusValid st).toNat

/-- R29: the write set of every operation, of a reserved code, and of an idle edge. -/
def Obligations.OperationsWriteOnlyTheirRegisters : Prop :=
  (∀ (i : Instr) (s : State), ∃ t, exec i s = .next t ∧ statusLastOp t.status = i.opcode ∧
    ((∀ lp, i ≠ .pack lp) → i ≠ .wfdef → t.resWf = s.resWf) ∧
    ((∀ wf, i ≠ .unpack wf) → i ≠ .lpdef → t.resLp = s.resLp) ∧
    ((∀ cf, i ≠ .cfverify cf) → t.resOk = s.resOk) ∧
    (i ≠ .cfdef → t.resCf = s.resCf)) ∧
  (∀ (p : Ports) (ps : List Ports) (s : State), p.rst = 0 → p.reqValid = 0 →
    ∃ t, step (s.drive (p :: ps)) = .next t ∧
      t.resLp = s.resLp ∧ t.resWf = s.resWf ∧ t.resCf = s.resCf ∧ t.resOk = s.resOk ∧
      t.status = mkStatus (statusLastOp s.status) (statusIllegal s.status) 0)

/-- R30: no operation's result depends on the previous value of any register: what a request writes from one
state it writes from every other. -/
def Obligations.ResultsDependOnInputsAlone : Prop :=
  ∀ (i : Instr) (s s' : State), ∃ t t', exec i s = .next t ∧ exec i s' = .next t' ∧
    t.status = t'.status ∧
    (t.resLp = t'.resLp ∨ t.resLp = s.resLp ∧ t'.resLp = s'.resLp) ∧
    (t.resWf = t'.resWf ∨ t.resWf = s.resWf ∧ t'.resWf = s'.resWf) ∧
    (t.resCf = t'.resCf ∨ t.resCf = s.resCf ∧ t'.resCf = s'.resCf) ∧
    (t.resOk = t'.resOk ∨ t.resOk = s.resOk ∧ t'.resOk = s'.resOk)

/-- R56: repeating a request with the same operands leaves the same result registers. -/
def Obligations.RequestsAreIdempotent : Prop :=
  ∀ (i : Instr) (s : State), ∃ t, exec i s = .next t ∧ exec i t = .next t

/-- R210, R212, R243: nothing stops the block: every step from every state answers a next state, and so does every
run over any port values. R210 says so of the legal codes; that a reserved code answers a next state is log 5
(DEDUCED), and reset and idle edges are R243's. -/
def Obligations.NoEdgeStopsTheBlock : Prop :=
  (∀ s : State, ∃ t, step s = .next t) ∧ (∀ (ps : List Ports) (s : State), ∃ t, runOver ps s = .next t)

/-! ## The sub-units -/

/-- R100, R101, R102: the quantizer, value by value. -/
def Obligations.QuantizerFollowsItsTable : Prop :=
  (∀ l : Level, (quantize l).toNat = l.toNat / 32) ∧
  (List.range 8).map (fun c => (dequantize (BitVec.ofNat 3 c)).toNat) = [0, 36, 73, 109, 146, 182, 219, 255]

/-- R103: the four laws of the quantizer. -/
def Obligations.QuantizerLaws : Prop :=
  (∀ l : Level, (quantize l).toNat ≤ 7) ∧
  (∀ c : LevelCode, quantize (dequantize c) = c) ∧
  (∀ l : Level, (dequantize (quantize l) = l ↔ l.toNat ∈ [0, 36, 73, 109, 146, 182, 219, 255]) ∧
    (dequantize (quantize l)).extractLsb' 5 3 = l.extractLsb' 5 3) ∧
  (∀ l : Level, (dequantize (quantize l)).toNat ≤ l.toNat + 31 ∧ l.toNat ≤ (dequantize (quantize l)).toNat + 31) ∧
  (dequantize (quantize 31)).toNat + 31 = 31 ∧ (dequantize (quantize 224)).toNat = 224 + 31

/-- R120, R121: the time codec, at every width of at least 15 (R10). -/
def Obligations.TimeCodecValues : Prop :=
  ∀ W : Nat, 15 ≤ W →
    (∀ ms : BitVec W, (encodeTime ms).toNat = min 255 (ms.toNat / 100)) ∧
    (∀ c : FadeCode, (decodeTime W c).toNat = c.toNat * 100)

/-- R122: the four laws of the time codec, at every width of at least 15 (R10). -/
def Obligations.TimeCodecLaws : Prop :=
  ∀ W : Nat, 15 ≤ W →
    (∀ ms : BitVec W, (decodeTime W (encodeTime ms) = ms ↔ ms.toNat % 100 = 0 ∧ ms.toNat ≤ 25500) ∧
      (decodeTime W (encodeTime ms)).toNat = 100 * min 255 (ms.toNat / 100) ∧
      (decodeTime W (encodeTime ms)).toNat ≤ ms.toNat) ∧
    (∀ ms : BitVec W, 25500 ≤ ms.toNat → (encodeTime ms).toNat = 255) ∧
    (∀ c : FadeCode, encodeTime (decodeTime W c) = c) ∧
    (∀ a b : BitVec W, a.toNat ≤ b.toNat → (encodeTime a).toNat ≤ (encodeTime b).toNat)

/-- R141, R142, R144: the mask codec, value by value. -/
def Obligations.MaskCodecValues : Prop :=
  (∀ m : TreeMask, (maskEncode m).low.toNat = m.toNat % 32 ∧ (maskEncode m).high.toNat = m.toNat / 32 % 2 ∧
    ((maskEncode m).all = 1 ↔ m = 0xFF)) ∧
  (∀ (low : BitVec 5) (high all : Bit),
    (maskDecode { low := low, high := high, all := all }).toNat =
      if all = 1 then 0xFF else low.toNat + 32 * high.toNat)

/-- R146: the round trip of the mask, and which masks survive it. -/
def Obligations.MaskRoundTrip : Prop :=
  ∀ m : TreeMask, maskDecode (maskEncode m) = (if m = 0xFF then 0xFF else m &&& 0x3F) ∧
    (maskDecode (maskEncode m) = m ↔ m.toNat ≤ 0x3F ∨ m = 0xFF)

/-- R140: a unit 1..6 is addressed by 0xFF and by its own mask bit, a unit with no assigned address by 0xFF, and no
unit by 0x00. That nothing BUT 0xFF addresses a unit with no assigned address is C4's reading (log 14, DEDUCED). -/
def Obligations.MasksAddressTheirUnits : Prop :=
  (∀ (m : TreeMask) (n : Nat), 1 ≤ n → n ≤ 6 →
    (addresses m (some n) = true ↔ m = 0xFF ∨ m.getLsbD (n - 1) = true)) ∧
  (∀ m : TreeMask, addresses m none = true ↔ m = 0xFF) ∧
  (∀ unit : Option Nat, addresses 0x00 unit = false)

/-- R140, R146: a mask that went over the wire addresses the same units as the mask that was sent. That a unit
numbered outside 1..6 is reached by 0xFF alone is C4's reading (log 14). -/
def Obligations.WireKeepsTheAddressedUnits : Prop :=
  ∀ (lp : LightingPacket) (s : State) (unit : Option Nat), ∃ t u, exec (.pack lp) s = .next t ∧
    exec (.unpack (wfOut t)) t = .next u ∧ addresses u.resLp.treeMask unit = addresses lp.treeMask unit

/-! ## Layout and byte order -/

/-- R77: the sixteen offsets. -/
def Obligations.LevelOffsetsFollowTheTable : Prop :=
  (List.finRange 16).map off = [1, 4, 7, 10, 13, 17, 20, 23, 26, 29, 32, 35, 38, 41, 44, 48]

/-- R78, R81: every bit of the WireFrame, and every bit of the ControlFrame, belongs to exactly one field. -/
def Obligations.FieldsPartitionTheFrames : Prop :=
  (∀ b : Fin 64, (wireFields.filter (fun f => decide (f.1 ≤ b.val ∧ b.val < f.1 + f.2))).length = 1) ∧
  (∀ b : Fin 24, (controlFields.filter (fun f => decide (f.1 ≤ b.val ∧ b.val < f.1 + f.2))).length = 1)

/-- R52: byte k of a WireFrame is `F[8k+7 : 8k]`, and the eight bytes give the frame back. -/
def Obligations.WireFrameByteOrder : Prop :=
  (∀ F : WireFrame, (wireToBytes F).length = 8 ∧
    (∀ k j, k < 8 → j < 8 → ((wireToBytes F).getD k 0).getLsbD j = F.getLsbD (8 * k + j)) ∧
    wireOfBytes (wireToBytes F) = .ok F) ∧
  (∀ bs : List Byte, bs.length = 8 → ∃ F, wireOfBytes bs = .ok F ∧ wireToBytes F = bs)

/-- R53: byte k of a ControlFrame is `C[8k+7 : 8k]`, and the three bytes give the frame back. -/
def Obligations.ControlFrameByteOrder : Prop :=
  (∀ C : ControlFrame, (controlToBytes C).length = 3 ∧
    (∀ k j, k < 3 → j < 8 → ((controlToBytes C).getD k 0).getLsbD j = C.getLsbD (8 * k + j)) ∧
    controlOfBytes (controlToBytes C) = .ok C) ∧
  (∀ bs : List Byte, bs.length = 3 → ∃ C, controlOfBytes bs = .ok C ∧ controlToBytes C = bs)

/-- R54: the level fields 2, 7 and 12 are the fields of a WireFrame that lie in two bytes, and their code bits stand
where the table puts them; the verification field of a ControlFrame spans its three bytes. -/
def Obligations.StraddlingFieldsSplitAcrossBytes : Prop :=
  (wireFields.filter (fun f => decide (f.1 / 8 ≠ (f.1 + f.2 - 1) / 8)) = [(off 2, 3), (off 7, 3), (off 12, 3)]) ∧
  (∀ F : WireFrame,
    F.extractLsb' (off 2) 3 = ((wireToBytes F).getD 1 0).extractLsb' 0 2 ++ ((wireToBytes F).getD 0 0).extractLsb' 7 1 ∧
    F.extractLsb' (off 7) 3 = ((wireToBytes F).getD 3 0).extractLsb' 0 2 ++ ((wireToBytes F).getD 2 0).extractLsb' 7 1 ∧
    F.extractLsb' (off 12) 3 = ((wireToBytes F).getD 5 0).extractLsb' 0 1 ++ ((wireToBytes F).getD 4 0).extractLsb' 6 2) ∧
  (∀ C : ControlFrame, C.extractLsb' 5 16 = ((controlToBytes C).getD 2 0).extractLsb' 0 5 ++
    ((controlToBytes C).getD 1 0).extractLsb' 0 8 ++ ((controlToBytes C).getD 0 0).extractLsb' 5 3)

/-- R86: a line of assembler is one edge. Each of the nine lines, with its numbers in their ranges and over any
values of the ports it leaves open, assembles to its edge: a reset edge, an idle edge, or an edge that accepts the
line's operation on the line's operand. A line with a number out of its range assembles to none, and so does every
line the check calls ill-formed. The parameter for the open ports and the refusal are the model's (log 16). -/
def Obligations.AssembledLinesAreTheirEdges : Prop :=
  ∀ bg : Ports,
    (∃ p, assemble bg .reset = some p ∧ edgeKind p = .reset) ∧
    (∃ p, assemble bg .idle = some p ∧ edgeKind p = .idle) ∧
    (∀ type levels mem fade mask,
      levels.length = 16 → (∀ l ∈ levels, l ≤ 255) → mem ≤ 255 → fade ≤ 65535 → mask ≤ 0xFF →
      ∃ p lp, assemble bg (.pack type levels mem fade mask) = some p ∧ edgeKind p = .accept p.request ∧
        decode p.request = .pack lp ∧ lp.instrumentType = type ∧
        (∀ i : Lane, levels[i.val]? = some lp.pwmLevels[i].toNat) ∧
        lp.memoryIndex.toNat = mem ∧ lp.fadeTimeMs.toNat = fade ∧ lp.treeMask.toNat = mask) ∧
    (∀ type levels mem fade mask,
      (levels.length ≠ 16 ∨ (∃ l ∈ levels, 255 < l) ∨ 255 < mem ∨ 65535 < fade ∨ 0xFF < mask) →
      assemble bg (.pack type levels mem fade mask) = none) ∧
    (∀ wf, wf < 2 ^ 64 → ∃ p F, assemble bg (.unpack wf) = some p ∧ edgeKind p = .accept p.request ∧
      decode p.request = .unpack F ∧ F.toNat = wf) ∧
    (∀ wf, 2 ^ 64 ≤ wf → assemble bg (.unpack wf) = none) ∧
    (∀ cf, cf < 2 ^ 24 → ∃ p C, assemble bg (.cfverify cf) = some p ∧ edgeKind p = .accept p.request ∧
      decode p.request = .cfverify C ∧ C.toNat = cf) ∧
    (∀ cf, 2 ^ 24 ≤ cf → assemble bg (.cfverify cf) = none) ∧
    (∃ p, assemble bg .lpdef = some p ∧ edgeKind p = .accept p.request ∧ decode p.request = .lpdef) ∧
    (∃ p, assemble bg .wfdef = some p ∧ edgeKind p = .accept p.request ∧ decode p.request = .wfdef) ∧
    (∃ p, assemble bg .cfdef = some p ∧ edgeKind p = .accept p.request ∧ decode p.request = .cfdef) ∧
    (∃ p, assemble bg (.op 0b110) = some p ∧ edgeKind p = .accept p.request ∧
      decode p.request = .reserved110) ∧
    (∃ p, assemble bg (.op 0b111) = some p ∧ edgeKind p = .accept p.request ∧
      decode p.request = .reserved111) ∧
    (∀ code, code ≠ 0b110 → code ≠ 0b111 → assemble bg (.op code) = none) ∧
    (∀ l, lineWellFormed l = false → assemble bg l = none)

/-! ## The wire: decode and encode agree -/

/-- R168: PACK, then UNPACK of `wf_out` at a later edge (R246), for every packet. -/
def Obligations.UnpackOfPack : Prop :=
  ∀ (lp : LightingPacket) (s : State), ∃ t u, exec (.pack lp) s = .next t ∧
    exec (.unpack (wfOut t)) t = .next u ∧
    u.resLp.instrumentType = lp.instrumentType ∧
    (∀ i : Lane, u.resLp.pwmLevels[i] = dequantize (quantize lp.pwmLevels[i])) ∧
    u.resLp.fadeTimeMs.toNat = 100 * min 255 (lp.fadeTimeMs.toNat / 100) ∧
    u.resLp.treeMask = (if lp.treeMask = 0xFF then 0xFF else lp.treeMask &&& 0x3F) ∧
    u.resLp.memoryIndex = 0

/-- R169: UNPACK, then PACK of `lp_out` at a later edge (R246), for every 64-bit frame: the frame itself when bit
16 is 0, else the frame with bit 47 and bits 55..51 set. -/
def Obligations.PackOfUnpack : Prop :=
  ∀ (F : WireFrame) (s : State), ∃ t u, exec (.unpack F) s = .next t ∧
    exec (.pack (lpOut t)) t = .next u ∧
    u.resWf = (if F.getLsbD 16 then F ||| 0x00F8800000000000 else F)

/-! ## Invariants and histories -/

/-- The invariant of the registers holds at reset. -/
def Obligations.ResetMeetsTheRegisterInvariant : Prop := RegInv State.reset

/-- Every step keeps the invariant of the registers: RES_LP holds a decoded packet (R102, R121, R147, R164),
RES_WF a normal frame (R142), RES_CF the default frame (R192), ILLEGAL agrees with LAST_OP (R212), and the
model's fault record agrees with ILLEGAL (log 4). -/
def Obligations.EveryStepKeepsTheRegisterInvariant : Prop :=
  ∀ s t : State, RegInv s → step s = .next t → RegInv t

/-- R242: from any state whatever, power-up included, a run whose first edge is a reset ends in the invariant. -/
def Obligations.BootedRunsMeetTheRegisterInvariant : Prop :=
  ∀ (ps : List Ports) (s : State), Booted ps → ∃ t, runOver ps s = .next t ∧ RegInv t

/-- R57, R247: after any run from any state, each result register holds what the latest edge that writes it wrote,
and LAST_OP and ILLEGAL speak of the latest request since reset. -/
def Obligations.RegistersHoldTheLatestResult : Prop :=
  ∀ (ps : List Ports) (s : State), ∃ t, runOver ps s = .next t ∧
    t.resLp = latest lpWritten ps s.resLp ∧ t.resWf = latest wfWritten ps s.resWf ∧
    t.resCf = latest cfWritten ps s.resCf ∧ t.resOk = latest okWritten ps s.resOk ∧
    (statusLastOp t.status, statusIllegal t.status) =
      latest requestWritten ps (statusLastOp s.status, statusIllegal s.status)

/-- R249, R194: in a booted run, `RES_OK` is 1 exactly when the host may act on the frame it last had judged. -/
def Obligations.VerdictSpeaksOfTheLastJudgedFrame : Prop :=
  ∀ (ps : List Ports) (s : State), Booted ps → ∃ t, runOver ps s = .next t ∧
    (t.resOk = 1 ↔ ∃ C, MayAct ps C)

/-- A safe run, from any state, ends with `ILLEGAL` 0 and an empty fault record (R212, R242). The record is the
model's (log 4). -/
def Obligations.SafeRunsRecordNoFault : Prop :=
  ∀ (ps : List Ports) (s : State), SafeRun ps → ∃ t, runOver ps s = .next t ∧
    statusIllegal t.status = 0 ∧ t.requestFault = none

/-- R32, U9: before the first reset the strict read of each of the five outputs faults, in every state that has seen
no reset and after every run from power-up without a reset edge; after a run that has a reset edge, from any state,
each answers its register. The strict read and the mark `resetSeen` are the model's (log 6). -/
def Obligations.StrictReadsFaultBeforeReset : Prop :=
  (∀ s : State, s.resetSeen = false → StrictReadsFault s) ∧
  (∀ ps : List Ports, (∀ p ∈ ps, p.rst = 0) → ∃ t, runOver ps State.powerUp = .next t ∧ StrictReadsFault t) ∧
  (∀ (ps : List Ports) (s : State), (∃ p ∈ ps, p.rst = 1) → ∃ t, runOver ps s = .next t ∧ StrictReadsAnswer t)
end

