-- ==== Sys2Proof/Laws/Frames.lean ====
section
/-! SUPPORT. The frame field helpers of R14: what `ins` does to each bit, and what `fld` reads of it. -/

namespace Sys2Proof.Machine

theorem getLsbD_fld {n : Nat} (F : BitVec n) (o w i : Nat) :
    (fld F o w).getLsbD i = (decide (i < w) && F.getLsbD (o + i)) := by
  simp [fld, BitVec.getLsbD_extractLsb']

theorem getLsbD_fieldMask (n o w i : Nat) :
    (fieldMask n o w).getLsbD i = (decide (i < n) && decide (o ≤ i) && decide (i < o + w)) := by
  simp only [fieldMask, BitVec.getLsbD_shiftLeft, BitVec.getLsbD_setWidth, BitVec.getLsbD_allOnes]
  by_cases h1 : i < n <;> by_cases h2 : o ≤ i <;> by_cases h3 : i < o + w <;> simp [h1, h2, h3] <;> omega

/-- Bit `i` after `ins`: the field's new bit inside the field, the old bit outside it. -/
theorem getLsbD_ins {n : Nat} (F : BitVec n) (o w : Nat) (v : BitVec w) (i : Nat) (hi : i < n) :
    (ins F o w v).getLsbD i = if o ≤ i ∧ i < o + w then v.getLsbD (i - o) else F.getLsbD i := by
  simp only [ins, BitVec.getLsbD_or, BitVec.getLsbD_and, BitVec.getLsbD_not, getLsbD_fieldMask,
    BitVec.getLsbD_shiftLeft, BitVec.getLsbD_setWidth]
  by_cases h2 : o ≤ i <;> by_cases h3 : i < o + w
  · have : i - o < n := by omega
    simp [hi, h2, h3, this, Nat.not_lt.mpr h2]
  · have hv : v.getLsbD (i - o) = false := BitVec.getLsbD_of_ge v _ (by omega)
    simp [hi, h2, h3, hv]
  · simp [hi, h2, Nat.lt_of_not_le h2]
  · simp [hi, h2, Nat.lt_of_not_le h2]

/-- Reading the field just written (R14). -/
theorem fld_ins_same {n : Nat} (F : BitVec n) (o w : Nat) (v : BitVec w) (h : o + w ≤ n) :
    fld (ins F o w v) o w = v := by
  apply BitVec.eq_of_getLsbD_eq
  intro i hi
  rw [getLsbD_fld, getLsbD_ins _ _ _ _ _ (by omega)]
  simp [hi]

/-- Reading a field apart from the one just written (R14). -/
theorem fld_ins_apart {n : Nat} (F : BitVec n) (o w o' w' : Nat) (v : BitVec w) (hn : o' + w' ≤ n)
    (h : o' + w' ≤ o ∨ o + w ≤ o') : fld (ins F o w v) o' w' = fld F o' w' := by
  apply BitVec.eq_of_getLsbD_eq
  intro i hi
  rw [getLsbD_fld, getLsbD_fld, getLsbD_ins _ _ _ _ _ (by omega), if_neg (by omega)]

@[simp] theorem fld_zero (n o w : Nat) : fld (0 : BitVec n) o w = 0 := by
  apply BitVec.eq_of_getLsbD_eq
  intro i _
  simp [getLsbD_fld]

/-- A field depends on its own bits alone. -/
theorem fld_congr {n : Nat} (F G : BitVec n) (o w : Nat)
    (h : ∀ b, o ≤ b → b < o + w → F.getLsbD b = G.getLsbD b) : fld F o w = fld G o w := by
  apply BitVec.eq_of_getLsbD_eq
  intro i hi
  rw [getLsbD_fld, getLsbD_fld, h _ (by omega) (by omega)]

theorem fld_or {n : Nat} (F G : BitVec n) (o w : Nat) : fld (F ||| G) o w = fld F o w ||| fld G o w := by
  apply BitVec.eq_of_getLsbD_eq
  intro i hi
  simp [getLsbD_fld, Bool.and_or_distrib_left]

/-- A one-bit field is the frame's bit. -/
theorem fld_bit {n : Nat} (F : BitVec n) (o : Nat) : fld F o 1 = BitVec.ofBool (F.getLsbD o) := by
  apply BitVec.eq_of_getLsbD_eq
  intro i hi
  have : i = 0 := by omega
  subst this
  rw [getLsbD_fld]
  simp

/-- Two frames are equal if they agree on fields that cover every bit. -/
theorem eq_of_fields {n : Nat} (F G : BitVec n) (fs : List (Nat × Nat))
    (hcover : ∀ i, i < n → ∃ f ∈ fs, f.1 ≤ i ∧ i < f.1 + f.2)
    (h : ∀ f ∈ fs, fld F f.1 f.2 = fld G f.1 f.2) : F = G := by
  apply BitVec.eq_of_getLsbD_eq
  intro i hi
  obtain ⟨f, hf, hlo, hhi⟩ := hcover i hi
  have hbit := congrArg (fun b => b.getLsbD (i - f.1)) (h f hf)
  simp only [getLsbD_fld] at hbit
  have h1 : i - f.1 < f.2 := by omega
  have h2 : f.1 + (i - f.1) = i := by omega
  simpa [h1, h2] using hbit

end Sys2Proof.Machine
end

