-- ==== Sys2Proof/Laws/Codec.lean ====
section
/-! SUPPORT. What the sub-units answer: the fields of a packed frame, and the closed facts of the quantizer, the
time codec and the mask codec that later proofs cite. -/

namespace Sys2Proof.Machine

/-! ## Instrument type -/

@[simp] theorem ofBit_toBit (t : InstrumentType) : InstrumentType.ofBit t.toBit = t := by
  cases t <;> rfl

@[simp] theorem toBit_ofBit (b : Bit) : (InstrumentType.ofBit b).toBit = b := by
  revert b; decide

/-! ## Quantizer -/

theorem quantize_dequantize (c : LevelCode) : quantize (dequantize c) = c := by
  revert c; decide

theorem packedCode_eq (t : InstrumentType) (level : Level) : packedCode t level = quantize level := by
  cases t <;> rfl

/-! ## Time codec -/

theorem encodeTime_toNat {W : Nat} (ms : BitVec W) : (encodeTime ms).toNat = min 255 (ms.toNat / 100) := by
  simp only [encodeTime, Config.fadeCodeMax, Config.timeStepMs, BitVec.toNat_ofNat]
  exact Nat.mod_eq_of_lt (by norm_num)

theorem fadeCode_toNat_lt (c : FadeCode) : c.toNat < 256 := c.isLt

theorem decodeTime_toNat (W : Nat) (hW : 15 ≤ W) (c : FadeCode) : (decodeTime W c).toNat = c.toNat * 100 := by
  simp only [decodeTime, Config.timeStepMs, BitVec.toNat_ofNat]
  apply Nat.mod_eq_of_lt
  have h1 := fadeCode_toNat_lt c
  have h2 : 2 ^ 15 ≤ 2 ^ W := Nat.pow_le_pow_right (by norm_num) hW
  have h3 : (2 : Nat) ^ 15 = 32768 := by norm_num
  omega

theorem encodeTime_decodeTime (W : Nat) (hW : 15 ≤ W) (c : FadeCode) : encodeTime (decodeTime W c) = c := by
  apply BitVec.eq_of_toNat_eq
  rw [encodeTime_toNat, decodeTime_toNat W hW]
  have := fadeCode_toNat_lt c
  omega

/-! ## Mask codec -/

theorem maskDecode_maskEncode (m : TreeMask) :
    maskDecode (maskEncode m) = if m = Config.allUnits then Config.allUnits else m &&& 0x3F := by
  revert m; decide

/-! ## Level fields -/

theorem off_add_le (i : Lane) : off i + 3 ≤ 64 := by
  revert i; decide

theorem off_apart (i j : Lane) (h : i ≠ j) : off i + 3 ≤ off j ∨ off j + 3 ≤ off i := by
  revert i j; decide

/-- No level field meets the type bit, the flag, the high bit, the low mask or the fade code (R76, R78). -/
theorem off_apart_others (i : Lane) :
    1 ≤ off i ∧ (off i + 3 ≤ 16 ∨ 17 ≤ off i) ∧ (off i + 3 ≤ 47 ∨ 48 ≤ off i) ∧ off i + 3 ≤ 51 := by
  revert i; decide

/-- A field apart from every level field reads through `insLevels`. -/
theorem fld_foldl_apart (c : Lane → LevelCode) (ls : List Lane) (F : WireFrame) (o w : Nat)
    (hn : o + w ≤ 64) (h : ∀ i ∈ ls, o + w ≤ off i ∨ off i + 3 ≤ o) :
    fld (ls.foldl (fun G i => ins G (off i) Config.codeW (c i)) F) o w = fld F o w := by
  induction ls generalizing F with
  | nil => rfl
  | cons i ls ih =>
    rw [List.foldl_cons, ih _ (fun j hj => h j (List.mem_cons_of_mem _ hj))]
    exact fld_ins_apart _ _ _ _ _ _ hn (h i List.mem_cons_self)

/-- Each lane's field holds the lane's code (R104). -/
theorem fld_foldl_lane (c : Lane → LevelCode) (ls : List Lane) (F : WireFrame) (i : Lane) (hi : i ∈ ls)
    (hnd : ls.Nodup) :
    fld (ls.foldl (fun G i => ins G (off i) Config.codeW (c i)) F) (off i) Config.codeW = c i := by
  induction ls generalizing F with
  | nil => cases hi
  | cons j ls ih =>
    rw [List.foldl_cons]
    obtain ⟨hj, hls⟩ := List.nodup_cons.mp hnd
    rcases List.mem_cons.mp hi with rfl | hi'
    · rw [fld_foldl_apart _ _ _ _ _ (off_add_le i)]
      · exact fld_ins_same _ _ _ _ (off_add_le i)
      · intro k hk
        exact off_apart i k (fun h => hj (h ▸ hk))
    · exact ih _ hi' hls

theorem fld_insLevels_apart (lp : LightingPacket) (F : WireFrame) (o w : Nat) (hn : o + w ≤ 64)
    (h : ∀ i, o + w ≤ off i ∨ off i + 3 ≤ o) : fld (insLevels lp F) o w = fld F o w :=
  fld_foldl_apart _ _ F o w hn (fun i _ => h i)

theorem fld_insLevels_lane (lp : LightingPacket) (F : WireFrame) (i : Lane) :
    fld (insLevels lp F) (off i) Config.codeW = quantize lp.pwmLevels[i] := by
  rw [insLevels, fld_foldl_lane _ _ F i (List.mem_finRange i) (List.nodup_finRange _), packedCode_eq]

/-! ## The fields of a packed frame (R160) -/

theorem fld_pack_type (lp : LightingPacket) : fld (pack lp) 0 1 = lp.instrumentType.toBit := by
  simp only [pack, insAddress, allUnitsAt, highAddressAt, lowMaskAt, fadeCodeAt, typeAt]
  rw [fld_ins_apart _ _ _ _ _ _ (by decide) (by decide), fld_ins_apart _ _ _ _ _ _ (by decide) (by decide),
    fld_ins_apart _ _ _ _ _ _ (by decide) (by decide), fld_ins_apart _ _ _ _ _ _ (by decide) (by decide),
    fld_insLevels_apart _ _ _ _ (by decide) (fun i => .inl (off_apart_others i).1)]
  exact fld_ins_same _ _ _ _ (by decide)

theorem fld_pack_level (lp : LightingPacket) (i : Lane) :
    fld (pack lp) (off i) 3 = quantize lp.pwmLevels[i] := by
  have h := off_apart_others i
  simp only [pack, insAddress, allUnitsAt, highAddressAt, lowMaskAt, fadeCodeAt, typeAt]
  rw [fld_ins_apart _ _ _ _ _ _ (off_add_le i) (by omega), fld_ins_apart _ _ _ _ _ _ (off_add_le i) (by omega),
    fld_ins_apart _ _ _ _ _ _ (off_add_le i) (by omega), fld_ins_apart _ _ _ _ _ _ (off_add_le i) (by omega)]
  exact fld_insLevels_lane _ _ i

theorem fld_pack_fade (lp : LightingPacket) : fld (pack lp) 56 8 = encodeTime lp.fadeTimeMs := by
  simp only [pack, insAddress, allUnitsAt, highAddressAt, lowMaskAt, fadeCodeAt, typeAt]
  rw [fld_ins_apart _ _ _ _ _ _ (by decide) (by decide), fld_ins_apart _ _ _ _ _ _ (by decide) (by decide),
    fld_ins_apart _ _ _ _ _ _ (by decide) (by decide)]
  exact fld_ins_same _ _ _ _ (by decide)

theorem fld_pack_low (lp : LightingPacket) : fld (pack lp) 51 5 = (maskEncode lp.treeMask).low := by
  simp only [pack, insAddress, allUnitsAt, highAddressAt, lowMaskAt, fadeCodeAt, typeAt]
  rw [fld_ins_apart _ _ _ _ _ _ (by decide) (by decide), fld_ins_apart _ _ _ _ _ _ (by decide) (by decide)]
  exact fld_ins_same _ _ _ _ (by decide)

theorem fld_pack_high (lp : LightingPacket) : fld (pack lp) 47 1 = (maskEncode lp.treeMask).high := by
  simp only [pack, insAddress, allUnitsAt, highAddressAt, lowMaskAt, fadeCodeAt, typeAt]
  rw [fld_ins_apart _ _ _ _ _ _ (by decide) (by decide)]
  exact fld_ins_same _ _ _ _ (by decide)

theorem fld_pack_all (lp : LightingPacket) : fld (pack lp) 16 1 = (maskEncode lp.treeMask).all := by
  simp only [pack, insAddress, allUnitsAt, highAddressAt, lowMaskAt, fadeCodeAt, typeAt]
  exact fld_ins_same _ _ _ _ (by decide)

theorem addressOf_pack (lp : LightingPacket) : addressOf (pack lp) = maskEncode lp.treeMask := by
  simp only [addressOf, allUnitsAt, highAddressAt, lowMaskAt]
  rw [fld_pack_low, fld_pack_high, fld_pack_all]

/-- The fields of R76 cover the frame (R78). -/
theorem wireFields_cover (i : Nat) (hi : i < 64) : ∃ f ∈ wireFields, f.1 ≤ i ∧ i < f.1 + f.2 := by
  revert i; decide

/-- Two frames with the same 21 fields are equal (R78). -/
theorem wire_ext (F G : WireFrame) (htype : fld F 0 1 = fld G 0 1)
    (hlevel : ∀ i : Lane, fld F (off i) 3 = fld G (off i) 3) (hfade : fld F 56 8 = fld G 56 8)
    (hlow : fld F 51 5 = fld G 51 5) (hhigh : fld F 47 1 = fld G 47 1) (hall : fld F 16 1 = fld G 16 1) :
    F = G := by
  refine eq_of_fields F G wireFields wireFields_cover ?_
  intro f hf
  simp only [wireFields, List.mem_append, List.mem_cons, List.not_mem_nil, or_false, List.mem_map] at hf
  rcases hf with (rfl | rfl | rfl | rfl | rfl) | ⟨i, _, rfl⟩
  · exact htype
  · exact hall
  · exact hhigh
  · exact hlow
  · exact hfade
  · exact hlevel i

/-! ## What UNPACK's packet holds -/

@[simp] theorem unpack_level (F : WireFrame) (i : Lane) :
    (unpack F).pwmLevels[i] = dequantize (fld F (off i) 3) := by
  simp [unpack]

@[simp] theorem unpack_memoryIndex (F : WireFrame) : (unpack F).memoryIndex = 0 := rfl

@[simp] theorem unpack_type (F : WireFrame) :
    (unpack F).instrumentType = InstrumentType.ofBit (fld F 0 1) := rfl

@[simp] theorem unpack_fade (F : WireFrame) : (unpack F).fadeTimeMs = decodeTime 16 (fld F 56 8) := rfl

@[simp] theorem unpack_mask (F : WireFrame) :
    (unpack F).treeMask = maskDecode { low := fld F 51 5, high := fld F 47 1, all := fld F 16 1 } := rfl

/-- Two packets with the same levels lane by lane, and the same other fields, are equal. -/
theorem packet_ext (p q : LightingPacket) (htype : p.instrumentType = q.instrumentType)
    (hlevel : ∀ i : Lane, p.pwmLevels[i] = q.pwmLevels[i]) (hmem : p.memoryIndex = q.memoryIndex)
    (hfade : p.fadeTimeMs = q.fadeTimeMs) (hmask : p.treeMask = q.treeMask) : p = q := by
  cases p; cases q
  simp only [LightingPacket.mk.injEq]
  exact ⟨htype, Vector.ext (fun i hi => hlevel ⟨i, hi⟩), hmem, hfade, hmask⟩

end Sys2Proof.Machine
end

