-- ==== Sys2Proof/Laws/Flags.lean ====
section
/-! SUPPORT. Reading back the fields of STATUS (R27). -/

namespace Sys2Proof.Machine

@[simp] theorem statusValid_mkStatus (op : OpCode) (i v : Bit) : statusValid (mkStatus op i v) = v := by
  revert op i v; decide

@[simp] theorem statusIllegal_mkStatus (op : OpCode) (i v : Bit) : statusIllegal (mkStatus op i v) = i := by
  revert op i v; decide

@[simp] theorem statusLastOp_mkStatus (op : OpCode) (i v : Bit) : statusLastOp (mkStatus op i v) = op := by
  revert op i v; decide

/-- STATUS is its three fields (R27). -/
theorem mkStatus_fields (st : StatusWord) :
    mkStatus (statusLastOp st) (statusIllegal st) (statusValid st) = st := by
  revert st; decide

@[simp] theorem statusValid_idleStatus (st : StatusWord) : statusValid (idleStatus st) = 0 := by
  simp [idleStatus]

@[simp] theorem statusIllegal_idleStatus (st : StatusWord) : statusIllegal (idleStatus st) = statusIllegal st := by
  simp [idleStatus]

@[simp] theorem statusLastOp_idleStatus (st : StatusWord) : statusLastOp (idleStatus st) = statusLastOp st := by
  simp [idleStatus]

@[simp] theorem statusValid_legalStatus (op : OpCode) : statusValid (legalStatus op) = 1 := by
  simp [legalStatus]

@[simp] theorem statusIllegal_legalStatus (op : OpCode) : statusIllegal (legalStatus op) = 0 := by
  simp [legalStatus]

@[simp] theorem statusLastOp_legalStatus (op : OpCode) : statusLastOp (legalStatus op) = op := by
  simp [legalStatus]

@[simp] theorem statusValid_illegalStatus (op : OpCode) : statusValid (illegalStatus op) = 1 := by
  simp [illegalStatus]

@[simp] theorem statusIllegal_illegalStatus (op : OpCode) : statusIllegal (illegalStatus op) = 1 := by
  simp [illegalStatus]

@[simp] theorem statusLastOp_illegalStatus (op : OpCode) : statusLastOp (illegalStatus op) = op := by
  simp [illegalStatus]

end Sys2Proof.Machine
end

