-- ==== Sys2Proof/Laws/State.lean ====
section
/-! SUPPORT. One lemma for each field of State under each named operation, so that no proof unfolds a record
update. -/

namespace Sys2Proof.Machine

/-! ## The strict read: all it can do -/

theorem strictRead_fault {α : Type} (out : State → α) {s : State} (h : s.resetSeen = false) :
    strictRead out s = .error .readBeforeReset := by
  simp [strictRead, h]

theorem strictRead_answer {α : Type} (out : State → α) {s : State} (h : s.resetSeen = true) :
    strictRead out s = .ok (out s) := by
  simp [strictRead, h]

/-! ## `writeLp` -/

@[simp] theorem writeLp_resLp (v : LightingPacket) (s : State) : (writeLp v s).resLp = v := rfl
@[simp] theorem writeLp_resWf (v : LightingPacket) (s : State) : (writeLp v s).resWf = s.resWf := rfl
@[simp] theorem writeLp_resCf (v : LightingPacket) (s : State) : (writeLp v s).resCf = s.resCf := rfl
@[simp] theorem writeLp_resOk (v : LightingPacket) (s : State) : (writeLp v s).resOk = s.resOk := rfl
@[simp] theorem writeLp_status (v : LightingPacket) (s : State) : (writeLp v s).status = s.status := rfl
@[simp] theorem writeLp_upcoming (v : LightingPacket) (s : State) : (writeLp v s).upcoming = s.upcoming := rfl
@[simp] theorem writeLp_edges (v : LightingPacket) (s : State) : (writeLp v s).edges = s.edges := rfl
@[simp] theorem writeLp_requestFault (v : LightingPacket) (s : State) :
    (writeLp v s).requestFault = s.requestFault := rfl
@[simp] theorem writeLp_resetSeen (v : LightingPacket) (s : State) :
    (writeLp v s).resetSeen = s.resetSeen := rfl

/-! ## `writeWf` -/

@[simp] theorem writeWf_resLp (v : WireFrame) (s : State) : (writeWf v s).resLp = s.resLp := rfl
@[simp] theorem writeWf_resWf (v : WireFrame) (s : State) : (writeWf v s).resWf = v := rfl
@[simp] theorem writeWf_resCf (v : WireFrame) (s : State) : (writeWf v s).resCf = s.resCf := rfl
@[simp] theorem writeWf_resOk (v : WireFrame) (s : State) : (writeWf v s).resOk = s.resOk := rfl
@[simp] theorem writeWf_status (v : WireFrame) (s : State) : (writeWf v s).status = s.status := rfl
@[simp] theorem writeWf_upcoming (v : WireFrame) (s : State) : (writeWf v s).upcoming = s.upcoming := rfl
@[simp] theorem writeWf_edges (v : WireFrame) (s : State) : (writeWf v s).edges = s.edges := rfl
@[simp] theorem writeWf_requestFault (v : WireFrame) (s : State) :
    (writeWf v s).requestFault = s.requestFault := rfl
@[simp] theorem writeWf_resetSeen (v : WireFrame) (s : State) : (writeWf v s).resetSeen = s.resetSeen := rfl

/-! ## `writeCf` -/

@[simp] theorem writeCf_resLp (v : ControlFrame) (s : State) : (writeCf v s).resLp = s.resLp := rfl
@[simp] theorem writeCf_resWf (v : ControlFrame) (s : State) : (writeCf v s).resWf = s.resWf := rfl
@[simp] theorem writeCf_resCf (v : ControlFrame) (s : State) : (writeCf v s).resCf = v := rfl
@[simp] theorem writeCf_resOk (v : ControlFrame) (s : State) : (writeCf v s).resOk = s.resOk := rfl
@[simp] theorem writeCf_status (v : ControlFrame) (s : State) : (writeCf v s).status = s.status := rfl
@[simp] theorem writeCf_upcoming (v : ControlFrame) (s : State) : (writeCf v s).upcoming = s.upcoming := rfl
@[simp] theorem writeCf_edges (v : ControlFrame) (s : State) : (writeCf v s).edges = s.edges := rfl
@[simp] theorem writeCf_requestFault (v : ControlFrame) (s : State) :
    (writeCf v s).requestFault = s.requestFault := rfl
@[simp] theorem writeCf_resetSeen (v : ControlFrame) (s : State) :
    (writeCf v s).resetSeen = s.resetSeen := rfl

/-! ## `writeOk` -/

@[simp] theorem writeOk_resLp (v : Bit) (s : State) : (writeOk v s).resLp = s.resLp := rfl
@[simp] theorem writeOk_resWf (v : Bit) (s : State) : (writeOk v s).resWf = s.resWf := rfl
@[simp] theorem writeOk_resCf (v : Bit) (s : State) : (writeOk v s).resCf = s.resCf := rfl
@[simp] theorem writeOk_resOk (v : Bit) (s : State) : (writeOk v s).resOk = v := rfl
@[simp] theorem writeOk_status (v : Bit) (s : State) : (writeOk v s).status = s.status := rfl
@[simp] theorem writeOk_upcoming (v : Bit) (s : State) : (writeOk v s).upcoming = s.upcoming := rfl
@[simp] theorem writeOk_edges (v : Bit) (s : State) : (writeOk v s).edges = s.edges := rfl
@[simp] theorem writeOk_requestFault (v : Bit) (s : State) :
    (writeOk v s).requestFault = s.requestFault := rfl
@[simp] theorem writeOk_resetSeen (v : Bit) (s : State) : (writeOk v s).resetSeen = s.resetSeen := rfl

/-! ## `completeLegal` -/

@[simp] theorem completeLegal_resLp (op : OpCode) (s : State) : (completeLegal op s).resLp = s.resLp := rfl
@[simp] theorem completeLegal_resWf (op : OpCode) (s : State) : (completeLegal op s).resWf = s.resWf := rfl
@[simp] theorem completeLegal_resCf (op : OpCode) (s : State) : (completeLegal op s).resCf = s.resCf := rfl
@[simp] theorem completeLegal_resOk (op : OpCode) (s : State) : (completeLegal op s).resOk = s.resOk := rfl
@[simp] theorem completeLegal_status (op : OpCode) (s : State) :
    (completeLegal op s).status = legalStatus op := rfl
@[simp] theorem completeLegal_upcoming (op : OpCode) (s : State) :
    (completeLegal op s).upcoming = s.upcoming := rfl
@[simp] theorem completeLegal_edges (op : OpCode) (s : State) : (completeLegal op s).edges = s.edges := rfl
@[simp] theorem completeLegal_requestFault (op : OpCode) (s : State) :
    (completeLegal op s).requestFault = s.requestFault := rfl
@[simp] theorem completeLegal_resetSeen (op : OpCode) (s : State) :
    (completeLegal op s).resetSeen = s.resetSeen := rfl

/-! ## `takeIllegal` -/

@[simp] theorem takeIllegal_resLp (op : OpCode) (s : State) : (takeIllegal op s).resLp = s.resLp := rfl
@[simp] theorem takeIllegal_resWf (op : OpCode) (s : State) : (takeIllegal op s).resWf = s.resWf := rfl
@[simp] theorem takeIllegal_resCf (op : OpCode) (s : State) : (takeIllegal op s).resCf = s.resCf := rfl
@[simp] theorem takeIllegal_resOk (op : OpCode) (s : State) : (takeIllegal op s).resOk = s.resOk := rfl
@[simp] theorem takeIllegal_status (op : OpCode) (s : State) :
    (takeIllegal op s).status = illegalStatus op := rfl
@[simp] theorem takeIllegal_upcoming (op : OpCode) (s : State) :
    (takeIllegal op s).upcoming = s.upcoming := rfl
@[simp] theorem takeIllegal_edges (op : OpCode) (s : State) : (takeIllegal op s).edges = s.edges := rfl
@[simp] theorem takeIllegal_requestFault (op : OpCode) (s : State) :
    (takeIllegal op s).requestFault = s.requestFault.or (some op) := rfl
@[simp] theorem takeIllegal_resetSeen (op : OpCode) (s : State) :
    (takeIllegal op s).resetSeen = s.resetSeen := rfl

/-! ## `resetEdge` -/

@[simp] theorem resetEdge_resLp (s : State) : (resetEdge s).resLp = State.reset.resLp := rfl
@[simp] theorem resetEdge_resWf (s : State) : (resetEdge s).resWf = State.reset.resWf := rfl
@[simp] theorem resetEdge_resCf (s : State) : (resetEdge s).resCf = State.reset.resCf := rfl
@[simp] theorem resetEdge_resOk (s : State) : (resetEdge s).resOk = State.reset.resOk := rfl
@[simp] theorem resetEdge_status (s : State) : (resetEdge s).status = State.reset.status := rfl
@[simp] theorem resetEdge_upcoming (s : State) : (resetEdge s).upcoming = s.upcoming := rfl
@[simp] theorem resetEdge_edges (s : State) : (resetEdge s).edges = s.edges := rfl
@[simp] theorem resetEdge_requestFault (s : State) :
    (resetEdge s).requestFault = State.reset.requestFault := rfl
@[simp] theorem resetEdge_resetSeen (s : State) : (resetEdge s).resetSeen = State.reset.resetSeen := rfl

/-! ## `idleEdge` -/

@[simp] theorem idleEdge_resLp (s : State) : (idleEdge s).resLp = s.resLp := rfl
@[simp] theorem idleEdge_resWf (s : State) : (idleEdge s).resWf = s.resWf := rfl
@[simp] theorem idleEdge_resCf (s : State) : (idleEdge s).resCf = s.resCf := rfl
@[simp] theorem idleEdge_resOk (s : State) : (idleEdge s).resOk = s.resOk := rfl
@[simp] theorem idleEdge_status (s : State) : (idleEdge s).status = idleStatus s.status := rfl
@[simp] theorem idleEdge_upcoming (s : State) : (idleEdge s).upcoming = s.upcoming := rfl
@[simp] theorem idleEdge_edges (s : State) : (idleEdge s).edges = s.edges := rfl
@[simp] theorem idleEdge_requestFault (s : State) : (idleEdge s).requestFault = s.requestFault := rfl
@[simp] theorem idleEdge_resetSeen (s : State) : (idleEdge s).resetSeen = s.resetSeen := rfl

/-! ## `passEdge` -/

@[simp] theorem passEdge_resLp (s : State) : (passEdge s).resLp = s.resLp := rfl
@[simp] theorem passEdge_resWf (s : State) : (passEdge s).resWf = s.resWf := rfl
@[simp] theorem passEdge_resCf (s : State) : (passEdge s).resCf = s.resCf := rfl
@[simp] theorem passEdge_resOk (s : State) : (passEdge s).resOk = s.resOk := rfl
@[simp] theorem passEdge_status (s : State) : (passEdge s).status = s.status := rfl
@[simp] theorem passEdge_upcoming (s : State) : (passEdge s).upcoming = s.upcoming.tail := rfl
@[simp] theorem passEdge_edges (s : State) : (passEdge s).edges = s.edges + 1 := rfl
@[simp] theorem passEdge_requestFault (s : State) : (passEdge s).requestFault = s.requestFault := rfl
@[simp] theorem passEdge_resetSeen (s : State) : (passEdge s).resetSeen = s.resetSeen := rfl

/-! ## `State.drive` -/

@[simp] theorem State.drive_resLp (ps : List Ports) (s : State) : (s.drive ps).resLp = s.resLp := rfl
@[simp] theorem State.drive_resWf (ps : List Ports) (s : State) : (s.drive ps).resWf = s.resWf := rfl
@[simp] theorem State.drive_resCf (ps : List Ports) (s : State) : (s.drive ps).resCf = s.resCf := rfl
@[simp] theorem State.drive_resOk (ps : List Ports) (s : State) : (s.drive ps).resOk = s.resOk := rfl
@[simp] theorem State.drive_status (ps : List Ports) (s : State) : (s.drive ps).status = s.status := rfl
@[simp] theorem State.drive_upcoming (ps : List Ports) (s : State) : (s.drive ps).upcoming = ps := rfl
@[simp] theorem State.drive_edges (ps : List Ports) (s : State) : (s.drive ps).edges = s.edges := rfl
@[simp] theorem State.drive_requestFault (ps : List Ports) (s : State) :
    (s.drive ps).requestFault = s.requestFault := rfl
@[simp] theorem State.drive_resetSeen (ps : List Ports) (s : State) :
    (s.drive ps).resetSeen = s.resetSeen := rfl

end Sys2Proof.Machine
end

