-- ==== Sys2Proof/Laws/Step.lean ====
section
/-! SUPPORT. What one request and one edge can do, said once: the state after a request, the state after an edge,
and a run as a fold over its edges. Later proofs cite these and unfold neither `exec` nor `step`. -/

namespace Sys2Proof.Machine

/-- The state a request leaves (R243): every request answers a next state (R210, R212). -/
def afterRequest (i : Instr) (s : State) : State :=
  match i with
  | .pack lp => completeLegal 0b000 (writeWf (pack lp) s)
  | .unpack wf => completeLegal 0b001 (writeLp (unpack wf) s)
  | .cfverify cf => completeLegal 0b010 (writeOk (verify cf) s)
  | .lpdef => completeLegal 0b011 (writeLp defaultLp s)
  | .wfdef => completeLegal 0b100 (writeWf defaultWf s)
  | .cfdef => completeLegal 0b101 (writeCf defaultCf s)
  | .reserved110 => takeIllegal 0b110 s
  | .reserved111 => takeIllegal 0b111 s

theorem exec_eq_afterRequest (i : Instr) (s : State) : exec i s = .next (afterRequest i s) := by
  cases i <;> rfl

/-- The state an edge with the port values `p` leaves (R243). -/
def afterEdge (p : Ports) (s : State) : State :=
  match edgeKind p with
  | .reset => resetEdge s
  | .idle => idleEdge s
  | .accept r => afterRequest (decode r) s

theorem step_eq_afterEdge (s : State) : step s = .next (afterEdge (sampledPorts s) (passEdge s)) := by
  unfold step afterEdge
  cases edgeKind (sampledPorts s) with
  | reset => rfl
  | idle => rfl
  | accept r => exact exec_eq_afterRequest _ _

@[simp] theorem sampledPorts_drive_cons (s : State) (p : Ports) (ps : List Ports) :
    sampledPorts (s.drive (p :: ps)) = p := rfl

@[simp] theorem passEdge_drive_cons (s : State) (p : Ports) (ps : List Ports) :
    passEdge (s.drive (p :: ps)) = (passEdge s).drive ps := rfl

/-! ## The request on the ports -/

@[simp] theorem request_op (p : Ports) : p.request.op = p.reqOp := rfl

@[simp] theorem request_lpIn (p : Ports) : p.request.lpIn = p.lpIn := rfl

@[simp] theorem request_wfIn (p : Ports) : p.request.wfIn = p.wfIn := rfl

@[simp] theorem request_cfIn (p : Ports) : p.request.cfIn = p.cfIn := rfl

theorem opCode_cases (op : OpCode) :
    op = 0b000 ∨ op = 0b001 ∨ op = 0b010 ∨ op = 0b011 ∨ op = 0b100 ∨ op = 0b101 ∨ op = 0b110 ∨ op = 0b111 := by
  revert op; decide

/-- What an accepted request decodes to, by its code (R71, R87). -/
theorem decode_request (p : Ports) :
    (p.reqOp = 0b000 ∧ decode p.request = .pack p.lpIn) ∨ (p.reqOp = 0b001 ∧ decode p.request = .unpack p.wfIn) ∨
    (p.reqOp = 0b010 ∧ decode p.request = .cfverify p.cfIn) ∨ (p.reqOp = 0b011 ∧ decode p.request = .lpdef) ∨
    (p.reqOp = 0b100 ∧ decode p.request = .wfdef) ∨ (p.reqOp = 0b101 ∧ decode p.request = .cfdef) ∨
    (p.reqOp = 0b110 ∧ decode p.request = .reserved110) ∨
    (p.reqOp = 0b111 ∧ decode p.request = .reserved111) := by
  obtain ⟨b, r, v, op⟩ := p
  rcases opCode_cases op with rfl | rfl | rfl | rfl | rfl | rfl | rfl | rfl <;> simp [Ports.request, decode]

/-! ## The kind of an edge -/

theorem edgeKind_reset {p : Ports} (h : p.rst = 1) : edgeKind p = .reset := by
  simp [edgeKind, h]

theorem edgeKind_idle {p : Ports} (hr : p.rst = 0) (hv : p.reqValid = 0) : edgeKind p = .idle := by
  simp [edgeKind, hr, hv]

theorem edgeKind_accept {p : Ports} (hr : p.rst = 0) (hv : p.reqValid = 1) :
    edgeKind p = .accept p.request := by
  simp [edgeKind, hr, hv]

theorem bit_zero_or_one (b : Bit) : b = 0 ∨ b = 1 := by
  revert b; decide

/-- Every edge is a reset edge, an idle edge or an accepting edge (R243). -/
theorem edgeKind_cases (p : Ports) :
    (p.rst = 1 ∧ edgeKind p = .reset) ∨ (p.rst = 0 ∧ p.reqValid = 0 ∧ edgeKind p = .idle) ∨
      (p.rst = 0 ∧ p.reqValid = 1 ∧ edgeKind p = .accept p.request) := by
  rcases bit_zero_or_one p.rst with hr | hr
  · rcases bit_zero_or_one p.reqValid with hv | hv
    · exact .inr (.inl ⟨hr, hv, edgeKind_idle hr hv⟩)
    · exact .inr (.inr ⟨hr, hv, edgeKind_accept hr hv⟩)
  · exact .inl ⟨hr, edgeKind_reset hr⟩

/-! ## The mark of a first reset -/

@[simp] theorem afterRequest_resetSeen (i : Instr) (s : State) : (afterRequest i s).resetSeen = s.resetSeen := by
  cases i <;> rfl

/-- A reset edge sets the mark, and every other edge keeps it. -/
theorem afterEdge_resetSeen (p : Ports) (s : State) :
    (afterEdge p s).resetSeen = (decide (p.rst = 1) || s.resetSeen) := by
  rcases edgeKind_cases p with ⟨hr, hk⟩ | ⟨hr, _, hk⟩ | ⟨hr, _, hk⟩
  · simp [afterEdge, hk, hr, State.reset]
  · simp [afterEdge, hk, hr]
  · simp [afterEdge, hk, hr]

/-! ## The host's list of inputs passes through an edge -/

@[simp] theorem afterRequest_drive (i : Instr) (s : State) (ps : List Ports) :
    afterRequest i (s.drive ps) = (afterRequest i s).drive ps := by
  cases i <;> rfl

@[simp] theorem afterEdge_drive (p : Ports) (s : State) (ps : List Ports) :
    afterEdge p (s.drive ps) = (afterEdge p s).drive ps := by
  unfold afterEdge
  cases edgeKind p with
  | reset => rfl
  | idle => rfl
  | accept r => exact afterRequest_drive _ _ _

/-- Driving a state that a run has already driven. -/
@[simp] theorem drive_drive (s : State) (ps qs : List Ports) : (s.drive ps).drive qs = s.drive qs := rfl

/-! ## Runs -/

@[simp] theorem runOver_nil (s : State) : runOver [] s = .next (s.drive []) := rfl

theorem runSteps_succ (k : Nat) (s : State) :
    runSteps (k + 1) s = runSteps k (afterEdge (sampledPorts s) (passEdge s)) := by
  rw [runSteps, step_eq_afterEdge]

theorem runOver_cons (p : Ports) (ps : List Ports) (s : State) :
    runOver (p :: ps) s = runOver ps (afterEdge p (passEdge s)) := by
  rw [runOver, List.length_cons, runSteps_succ, sampledPorts_drive_cons, passEdge_drive_cons, afterEdge_drive]
  rfl

/-- The model's runs are the host's runs of the machine. -/
theorem runSteps_eq_core (k : Nat) (s : State) : Host.Core.run Sys2Proof.core k s = runSteps k s := by
  induction k generalizing s with
  | zero => rfl
  | succ k ih =>
    refine (Host.Core.run.eq_2 Sys2Proof.core s k).trans ?_
    have h : Sys2Proof.core.step s = .next (afterEdge (sampledPorts s) (passEdge s)) := step_eq_afterEdge s
    rw [h, runSteps_succ]
    exact ih _

/-- The registers after the edges `ps`. -/
def afterEdges (ps : List Ports) (s : State) : State :=
  ps.foldl (fun t p => afterEdge p (passEdge t)) s

/-- A run never stops, and its end is the fold of its edges (R57, R210). -/
theorem runOver_eq_afterEdges (ps : List Ports) (s : State) :
    runOver ps s = .next ((afterEdges ps s).drive []) := by
  induction ps generalizing s with
  | nil => rfl
  | cons p ps ih => rw [runOver_cons, ih]; rfl

end Sys2Proof.Machine
end

