-- ==== Sys2Proof/Tests/Slice0.lean ====
section
/-! SUPPORT. Small tests of one step or one function each. Every expected value is spec/95_test_vectors.md's or an
example of the rule named beside it. After them, for each statement with hypotheses, a concrete case that meets
them. -/

namespace Sys2Proof.Tests

open Sys2Proof.Machine

/-! ## Helpers -/

/-- The step from `s` with the port values `p` at the edge. -/
def stepOn (p : Ports) (s : State) : Option State :=
  match step (s.drive [p]) with
  | .next t => some t
  | _ => none

/-- The step from `s` with the request of `i` on the ports. -/
def stepInstr (i : Instr) (s : State) : Option State := stepOn (Ports.ofRequest (encode i)) s

/-- Ports at rest: `rst` = 0, `req_valid` = 0. -/
def quiet : Ports := { toBuses := Buses.zero, rst := 0, reqValid := 0, reqOp := 0 }

/-- A packet with 16 equal levels (the assembler's `[v x16]`). -/
def packetOf (t : InstrumentType) (v : Level) (mem : MemoryIndex) (fade : FadeMs) (mask : TreeMask) : LightingPacket :=
  { instrumentType := t, pwmLevels := Vector.replicate 16 v, memoryIndex := mem, fadeTimeMs := fade, treeMask := mask }

/-- A packet with the levels of a list. -/
def packetList (t : InstrumentType) (ls : List Nat) (fade : FadeMs) (mask : TreeMask) : LightingPacket :=
  linePacket t ls 0 fade.toNat mask.toNat

/-- A state after a reserved code 0b110 (T-STATUS). -/
def misused : State := { State.reset with status := 0x1B, requestFault := some 0b110 }

/-! ## Well-formedness: each check refuses an ill-formed term (R86) -/

theorem test_instr_wellFormed : (Instr.cfverify 0xFFFFFF).wellFormed = true := by decide
theorem test_levels_short : WellFormed.levels (List.replicate 15 0) = false := by decide
theorem test_levels_over : WellFormed.levels (256 :: List.replicate 15 0) = false := by decide
theorem test_levels_ok : WellFormed.levels (255 :: List.replicate 15 0) = true := by decide
theorem test_mem_over : WellFormed.mem 256 = false := by decide
theorem test_fade_over : WellFormed.fade 65536 = false := by decide
theorem test_mask_over : WellFormed.mask 256 = false := by decide
theorem test_wf_over : WellFormed.wf (2 ^ 64) = false := by decide
theorem test_cf_over : WellFormed.cf 0x1000000 = false := by decide
theorem test_code_legal : WellFormed.reservedCode 0b101 = false := by decide
theorem test_assemble_refuses : assemble quiet (.op 0b101) = none := by decide

/-! ## Decoding: words written out from R71 and opcode_table.json -/

theorem test_decode_000 : decode { toBuses := Buses.zero, op := 0b000 } = .pack (packetOf .dimmer 0 0 0 0) := by decide
theorem test_decode_001 : decode { Buses.zero with wfIn := 0x053F7FFFFFFEFFFE, op := 0b001 } =
    .unpack 0x053F7FFFFFFEFFFE := by decide
theorem test_decode_010 : decode { Buses.zero with cfIn := 0x01CED5, op := 0b010 } = .cfverify 0x01CED5 := by decide
theorem test_decode_011 : decode { toBuses := Buses.zero, op := 0b011 } = .lpdef := by decide
theorem test_decode_100 : decode { toBuses := Buses.zero, op := 0b100 } = .wfdef := by decide
theorem test_decode_101 : decode { toBuses := Buses.zero, op := 0b101 } = .cfdef := by decide
theorem test_decode_110 : decodeTableWord 8 0b110 = some .reserved110 := by decide
theorem test_decode_111 : decodeTableWord 8 0b111 = some .reserved111 := by decide

/-! ## The table word runs as the first request after reset (T-STATUS) -/

theorem test_fetch_pack : step (State.reset.withFetchWord 8 0) =
    .next { State.reset with status := 0x01, edges := 1 } := by rfl
theorem test_fetch_reserved : step (State.reset.withFetchWord 8 7) =
    .next { State.reset with status := 0x1F, edges := 1, requestFault := some 0b111 } := by rfl

/-! ## PACK (T-PACK, whole packets) -/

/-- E10. -/
theorem test_pack_scenario1 : (stepInstr (.pack (packetOf .dimmer 255 0 500 0x07)) State.reset).map
    (fun t => (t.resWf, t.status)) = some (0x053F7FFFFFFEFFFE, 0x01) := by decide

/-- The row with fade 12345 and mask 0xFE. -/
theorem test_pack_mixed : pack (packetList .dimmer [0x1F, 0x20, 0x3F, 0x40, 0x5F, 0x60, 0x7F, 0x80, 0x9F, 0xA0,
    0xBF, 0xC0, 0xDF, 0xE0, 0xFF, 0x00] 12345 0xFE) = 0x7BF0FFB5B2364890 := by decide

/-- The Memory row with mask 0xFF (P3, edge 1): the memory index 42 is not in the frame. -/
theorem test_pack_memory : pack (packetOf .memory 0 42 1000 0xFF) = 0x0AF8800000010001 := by decide

/-! ## UNPACK (T-UNPACK) -/

theorem test_unpack_aaaa : (stepInstr (.unpack 0xAAAAAAAAAAAAAAAA) State.reset).map (fun t => (t.resLp, t.status)) =
    some (packetList .dimmer [182, 73, 182, 73, 182, 182, 73, 182, 73, 182, 73, 182, 73, 182, 73, 73] 17000 0x35,
      0x05) := by decide

/-- P3, edge 2: the stale address bits are 0 and the mask is 0xFF all the same. -/
theorem test_unpack_stale : unpack 0x0A00000000010001 = packetOf .memory 0 0 1000 0xFF := by decide

/-! ## CFVERIFY (T-CF) -/

theorem test_cfverify_mode3 : (stepInstr (.cfverify 0xE1CEDF) State.reset).map (fun t => (t.resOk, t.status)) =
    some (1, 0x09) := by decide
theorem test_cfverify_swapped : (stepInstr (.cfverify 0x0EC1C0) { State.reset with resOk := 1 }).map State.resOk =
    some 0 := by decide

/-! ## Default construction (T-DEF) -/

theorem test_lpdef : (stepInstr .lpdef { State.reset with resLp := packetOf .memory 7 7 7 7 }).map
    (fun t => (t.resLp, t.status)) = some (packetOf .dimmer 0 0 0 0, 0x0D) := by decide
theorem test_wfdef : (stepInstr .wfdef { State.reset with resWf := 7 }).map (fun t => (t.resWf, t.status)) =
    some (0, 0x11) := by decide
theorem test_cfdef : (stepInstr .cfdef { State.reset with resCf := 7 }).map (fun t => (t.resCf, t.status)) =
    some (0x01CEC0, 0x15) := by decide

/-! ## Reserved codes, idle and reset (T-STATUS) -/

theorem test_reserved110 : stepInstr .reserved110 State.reset =
    some { State.reset with status := 0x1B, edges := 1, requestFault := some 0b110 } := by decide
theorem test_reserved111_again : (stepInstr .reserved111 misused).map (fun t => (t.status, t.requestFault)) =
    some (0x1F, some 0b110) := by decide
theorem test_idle_after_reserved : (stepOn quiet misused).map State.status = some 0x1A := by decide
theorem test_legal_clears_illegal : (stepInstr .lpdef misused).map State.status = some 0x0D := by decide

/-- P4, edge 4: reset wins over the PACK on the ports. -/
theorem test_reset_priority : stepOn { quiet with rst := 1, reqValid := 1 } { misused with resWf := 7 } =
    some { State.reset with edges := 1 } := by decide

/-! ## Sub-units -/

/-- T-TIME. -/
theorem test_encodeTime : [0, 99, 100, 12345, 25499, 25500, 25600, 65535].map
    (fun n => (encodeTime (BitVec.ofNat 16 n)).toNat) = [0, 0, 1, 123, 254, 255, 255, 255] := by decide

/-- T-MASK. -/
theorem test_mask_decode : [0x00, 0x20, 0x3F, 0x40, 0x7F, 0xC0, 0xFE, 0xFF].map
    (fun n => (maskDecode (maskEncode (BitVec.ofNat 8 n))).toNat) =
    [0x00, 0x20, 0x3F, 0x00, 0x3F, 0x00, 0x3E, 0xFF] := by decide

/-- R100 and R101's examples. -/
theorem test_quantize : quantize 0xB7 = 5 ∧ dequantize 5 = 182 := by decide

/-- R9, R10, R81: the parameters agree with one another. -/
theorem test_parameters : Config.cfModeW + Config.cfUnitW + Config.cfVerifyW = Config.cfBits ∧
    Config.cfBits + Config.cfPadW = Config.cfW ∧ Config.fadeMsMax = Config.fadeCodeMax * Config.timeStepMs ∧
    Config.fadeMsMax < 2 ^ 15 ∧ 15 ≤ Config.fadeMsW ∧ Config.latency = 1 := by decide

/-! ## Byte order (T-PACK, T-CF) -/

theorem test_wire_bytes : wireToBytes 0x7BF0FFB5B2364890 = [0x90, 0x48, 0x36, 0xB2, 0xB5, 0xFF, 0xF0, 0x7B] := by
  decide
theorem test_wire_of_bytes : (match wireOfBytes [0xFE, 0xFF, 0xFE, 0xFF, 0xFF, 0x7F, 0x3F, 0x05] with
    | .ok F => F == 0x053F7FFFFFFEFFFE
    | .error _ => false) = true := by decide
theorem test_control_bytes : controlToBytes 0x01CED5 = [0xD5, 0xCE, 0x01] := by decide

/-! ## Receiver (R140, P2) -/

theorem test_addresses : addresses 0x20 (some 6) = true ∧ addresses 0x20 (some 5) = false ∧
    addresses 0xFF none = true ∧ addresses 0x7F none = false := by decide

/-- P2: the frame of edge 3 is unit 5, IdQueryMode. -/
theorem test_receive : (match receiveControl 1 0x01CED5 with
    | .ok (m, u) => m == .idQueryMode && u == 5
    | .error _ => false) = true := by decide

/-! ## Concrete cases that meet the hypotheses of the statements -/

/-- Two port values that differ on the buses PACK does not read (UnnamedBusesHaveNoEffect). -/
theorem witness_unnamedBuses :
    let p : Ports := { quiet with reqValid := 1, wfIn := 1, cfIn := 1 }
    let q : Ports := { quiet with reqValid := 1, wfIn := 2, cfIn := 2 }
    p ≠ q ∧ p.rst = q.rst ∧ p.reqValid = q.reqValid ∧ p.reqOp = q.reqOp ∧ (p.reqOp = 0b000 → p.lpIn = q.lpIn) ∧
      (p.reqOp = 0b001 → p.wfIn = q.wfIn) ∧ (p.reqOp = 0b010 → p.cfIn = q.cfIn) := by decide

/-- An accepting edge (AcceptingEdgeRunsTheDecodedRequest). -/
theorem witness_acceptingEdge :
    let s := State.reset.drive [Ports.ofRequest (encode .cfdef)]
    (sampledPorts s).rst = 0 ∧ (sampledPorts s).reqValid = 1 := by decide

/-- The three kinds of edge, the accepting one with the first and the last code (EdgeFollowsTheStepFunction). -/
theorem witness_edgeKinds :
    ({ quiet with rst := 1 } : Ports).rst = 1 ∧ (quiet.rst = 0 ∧ quiet.reqValid = 0) ∧
    (∀ op ∈ [0b000, 0b111], (Ports.ofRequest { toBuses := Buses.zero, op := op }).rst = 0 ∧
      (Ports.ofRequest { toBuses := Buses.zero, op := op }).reqValid = 1 ∧
      (Ports.ofRequest { toBuses := Buses.zero, op := op }).reqOp = op) := by decide

/-- A reset edge with a request on the ports (ResetEdgeTakesTheResetValues). -/
theorem witness_resetEdge : ({ quiet with rst := 1, reqValid := 1 } : Ports).rst = 1 := by decide

/-- Two idle edges (IdleEdgesChangeValidAlone). -/
theorem witness_idleEdges : ∀ p ∈ [quiet, { quiet with reqOp := 7 }], p.rst = 0 ∧ p.reqValid = 0 := by decide

/-- Packets and frames that differ but agree on lane 15 (LanesDoNotInteract). -/
theorem witness_lanes :
    let p := packetOf .dimmer 9 0 0 0
    let q := packetList .memory [1, 2, 3, 4, 5, 6, 7, 8, 9, 10, 11, 12, 13, 14, 15, 9] 0 0
    p ≠ q ∧ p.pwmLevels[(15 : Lane)] = q.pwmLevels[(15 : Lane)] ∧
      (0x0007000000000000 : WireFrame).extractLsb' (off 15) 3 =
        (0xFFFFFFFFFFFFFFFF : WireFrame).extractLsb' (off 15) 3 := by decide

/-- Two frames that differ in the stale bits alone (UnpackIgnoresStaleAddressBits, for the bits of the frame). -/
theorem witness_staleBits :
    (0x00F8800000010000 : WireFrame) ≠ 0x10000 ∧ (0x10000 : WireFrame).getLsbD 16 = true ∧
    ∀ b : Fin 64, b.val ≠ 47 → ¬(51 ≤ b.val ∧ b.val ≤ 55) →
      (0x10000 : WireFrame).getLsbD b = (0x00F8800000010000 : WireFrame).getLsbD b := by decide

/-- A state with `ILLEGAL` 1, and the edges of each clause (IllegalIsClearedByLegalRequestOrReset). -/
theorem witness_illegal : statusIllegal misused.status = 1 ∧
    (let p := Ports.ofRequest (encode .reserved111)
     p.rst = 0 ∧ p.reqValid = 1 ∧ (p.reqOp = 0b110 ∨ p.reqOp = 0b111)) ∧
    (let p := Ports.ofRequest (encode .cfdef)
     p.reqValid = 1 ∧ p.reqOp ≠ 0b110 ∧ p.reqOp ≠ 0b111) := by decide

/-- An operation outside every write set but its own (OperationsWriteOnlyTheirRegisters). -/
theorem witness_writeSets : (∀ lp, Instr.cfdef ≠ .pack lp) ∧ Instr.cfdef ≠ .wfdef ∧
    (∀ wf, Instr.cfdef ≠ .unpack wf) ∧ Instr.cfdef ≠ .lpdef ∧ (∀ cf, Instr.cfdef ≠ .cfverify cf) ∧
    Instr.lpdef ≠ .cfdef :=
  ⟨fun _ => nofun, by decide, fun _ => nofun, by decide, fun _ => nofun, by decide⟩

/-- A mask on each side of the range's gap (UnpackedMasksAreInRange). -/
theorem witness_masks : (0x3F#8).toNat ≤ 0x3F ∧ ((0xFF#8).toNat ≤ 0x3F ∨ (0xFF#8) = 0xFF) := by decide

/-- The first and the last numbered unit (MasksAddressTheirUnits). -/
theorem witness_units : 1 ≤ 1 ∧ 1 ≤ 6 ∧ 6 ≤ 6 := by decide

/-- The least width, and durations of it (TimeCodecValues, TimeCodecLaws). -/
theorem witness_timeWidth : 15 ≤ 15 ∧ 25500 ≤ (25500#15).toNat ∧ (100#15).toNat ≤ (32767#15).toNat := by decide

/-- Byte lists of the two lengths, and the last byte and bit (WireFrameByteOrder, ControlFrameByteOrder). -/
theorem witness_bytes : ([1, 2, 3, 4, 5, 6, 7, 8] : List Byte).length = 8 ∧ ([1, 2, 3] : List Byte).length = 3 ∧
    7 < 8 ∧ 2 < 3 := by decide

/-- Numbers at both ends of their ranges, inside and just outside (AssembledLinesAreTheirEdges). -/
theorem witness_lineRanges :
    ((List.replicate 16 255).length = 16 ∧ (∀ l ∈ List.replicate 16 255, l ≤ 255) ∧ 255 ≤ 255 ∧ 65535 ≤ 65535 ∧
      0xFF ≤ 0xFF) ∧
    ((List.replicate 15 0).length ≠ 16 ∧ (∃ l ∈ [256], 255 < l) ∧ 255 < 256 ∧ 65535 < 65536 ∧ 0xFF < 0x100) ∧
    (2 ^ 64 - 1 < 2 ^ 64 ∧ 2 ^ 64 ≤ 2 ^ 64 ∧ 2 ^ 24 - 1 < 2 ^ 24 ∧ 2 ^ 24 ≤ 2 ^ 24) ∧
    (0b101 ≠ 0b110 ∧ 0b101 ≠ 0b111 ∧ 0b1000 ≠ 0b110 ∧ 0b1000 ≠ 0b111) ∧
    lineWellFormed (.op 0b101) = false := by decide

/-- A state without a reset, a run without a reset edge, and a run with one (StrictReadsFaultBeforeReset). -/
theorem witness_strictReads : State.powerUp.resetSeen = false ∧
    (∀ p ∈ [quiet, Ports.ofRequest (encode .cfdef)], p.rst = 0) ∧
    (∃ p ∈ [quiet, { quiet with rst := 1 }], p.rst = 1) := by
  exact ⟨rfl, by decide, by decide⟩

/-- The reset state meets the invariant, and a step answers from it (EveryStepKeepsTheRegisterInvariant). -/
theorem witness_invariantStep : RegInv State.reset ∧
    step (State.reset.drive [quiet]) = .next { State.reset with edges := 1 } := by
  refine ⟨⟨⟨by decide, by decide, by decide, by decide, by decide⟩, ?_, by decide, by decide, by decide, ?_, by decide⟩,
    by rfl⟩
  · unfold NormalFrame; decide
  · intro c h; cases h

/-- A run that starts with a reset and uses no reserved code (the statements over Booted and SafeRun). -/
theorem witness_safeRun : SafeRun [{ quiet with rst := 1 }, Ports.ofRequest (encode .cfdef)] :=
  ⟨⟨_, _, rfl, by decide⟩, by decide⟩

/-- A frame the host may act on (VerdictSpeaksOfTheLastJudgedFrame). -/
theorem witness_mayAct :
    MayAct [{ quiet with rst := 1 }, Ports.ofRequest (encode (.cfverify 0x01CED5)), quiet] 0x01CED5 :=
  ⟨by decide, by decide⟩

end Sys2Proof.Tests
end

section
/-! SUPPORT. The registers (spec/10_state.md): what one request writes to each, the invariant they keep, and the
strict reads before and after a reset. At the end, the statements settled with these. -/

namespace Sys2Proof.Machine

/-! ## What a request writes to each register (R29, R30)

Each is a function of the request alone; the lemmas below tie it to `afterRequest`. -/

/-- What a request writes to `RES_LP`, if it writes it. -/
def lpResult : Instr → Option LightingPacket
  | .unpack wf => some (unpack wf)
  | .lpdef => some defaultLp
  | _ => none

/-- What a request writes to `RES_WF`, if it writes it. -/
def wfResult : Instr → Option WireFrame
  | .pack lp => some (pack lp)
  | .wfdef => some defaultWf
  | _ => none

/-- What a request writes to `RES_CF`, if it writes it. -/
def cfResult : Instr → Option ControlFrame
  | .cfdef => some defaultCf
  | _ => none

/-- What a request writes to `RES_OK`, if it writes it. -/
def okResult : Instr → Option Bit
  | .cfverify cf => some (verify cf)
  | _ => none

/-- What a request writes to `STATUS` (R212, R243). -/
def statusResult : Instr → StatusWord
  | .reserved110 => illegalStatus 0b110
  | .reserved111 => illegalStatus 0b111
  | i => legalStatus i.opcode

theorem afterRequest_resLp (i : Instr) (s : State) : (afterRequest i s).resLp = (lpResult i).getD s.resLp := by
  cases i <;> rfl

theorem afterRequest_resWf (i : Instr) (s : State) : (afterRequest i s).resWf = (wfResult i).getD s.resWf := by
  cases i <;> rfl

theorem afterRequest_resCf (i : Instr) (s : State) : (afterRequest i s).resCf = (cfResult i).getD s.resCf := by
  cases i <;> rfl

theorem afterRequest_resOk (i : Instr) (s : State) : (afterRequest i s).resOk = (okResult i).getD s.resOk := by
  cases i <;> rfl

theorem afterRequest_status (i : Instr) (s : State) : (afterRequest i s).status = statusResult i := by
  cases i <;> rfl

theorem statusLastOp_statusResult (i : Instr) : statusLastOp (statusResult i) = i.opcode := by
  cases i with
  | reserved110 => exact statusLastOp_illegalStatus _
  | reserved111 => exact statusLastOp_illegalStatus _
  | _ => exact statusLastOp_legalStatus _

theorem lpResult_eq_none {i : Instr} (hunpack : ∀ wf, i ≠ .unpack wf) (hlpdef : i ≠ .lpdef) :
    lpResult i = none := by
  cases i with
  | unpack wf => exact absurd rfl (hunpack wf)
  | lpdef => exact absurd rfl hlpdef
  | _ => rfl

theorem wfResult_eq_none {i : Instr} (hpack : ∀ lp, i ≠ .pack lp) (hwfdef : i ≠ .wfdef) :
    wfResult i = none := by
  cases i with
  | pack lp => exact absurd rfl (hpack lp)
  | wfdef => exact absurd rfl hwfdef
  | _ => rfl

theorem cfResult_eq_none {i : Instr} (hcfdef : i ≠ .cfdef) : cfResult i = none := by
  cases i with
  | cfdef => exact absurd rfl hcfdef
  | _ => rfl

theorem okResult_eq_none {i : Instr} (hcfverify : ∀ cf, i ≠ .cfverify cf) : okResult i = none := by
  cases i with
  | cfverify cf => exact absurd rfl (hcfverify cf)
  | _ => rfl

/-- A register that takes `w`, or keeps its value where there is none, does not mix the two (R30). -/
theorem getD_eq_or_kept {α : Type} (w : Option α) (a b : α) :
    w.getD a = w.getD b ∨ w.getD a = a ∧ w.getD b = b := by
  cases w with
  | none => exact .inr ⟨rfl, rfl⟩
  | some v => exact .inl rfl

/-! ## STATUS as one value (R27) -/

theorem statusValid_toNat (st : StatusWord) : (statusValid st).toNat = st.toNat % 2 := by
  simp [statusValid]

theorem statusIllegal_toNat (st : StatusWord) : (statusIllegal st).toNat = st.toNat / 2 % 2 := by
  simp [statusIllegal, Nat.shiftRight_eq_div_pow]

theorem statusLastOp_toNat (st : StatusWord) : (statusLastOp st).toNat = st.toNat / 4 % 8 := by
  simp [statusLastOp, Nat.shiftRight_eq_div_pow]

/-! ## Decoded packets and normal frames -/

theorem dequantize_mem_levelTable (c : LevelCode) : dequantize c ∈ levelTable := by
  revert c; decide

/-- R147: without the flag, only the six low bits can be set. -/
theorem maskDecode_range (a : AddressFields) :
    (maskDecode a).toNat < 64 ∨ maskDecode a = Config.allUnits := by
  obtain ⟨low, high, all⟩ := a
  by_cases hall : all = 1
  · exact .inr (if_pos hall)
  · left
    rw [maskDecode, if_neg hall]
    dsimp only
    revert low high; decide

theorem maskEncode_all_eq_one {m : TreeMask} : (maskEncode m).all = 1 ↔ m = Config.allUnits := by
  revert m; decide

theorem decodedPacket_unpack (F : WireFrame) : DecodedPacket (unpack F) where
  levels i := by rw [unpack_level]; exact dequantize_mem_levelTable _
  memoryIndex := unpack_memoryIndex F
  fadeStep := by
    rw [unpack_fade, decodeTime_toNat 16 (by decide)]
    exact Nat.mul_mod_left _ _
  fadeMax := by
    rw [unpack_fade, decodeTime_toNat 16 (by decide), Config.fadeMsMax]
    have hcode := fadeCode_toNat_lt (fld F 56 8)
    omega
  mask := by rw [unpack_mask]; exact maskDecode_range _

theorem decodedPacket_defaultLp : DecodedPacket defaultLp where
  levels := by decide
  memoryIndex := rfl
  fadeStep := rfl
  fadeMax := Nat.zero_le _
  mask := .inl (by decide)

/-- R142: PACK sets the flag for the mask 0xFF alone, whose low and high bits are ones. -/
theorem normalFrame_pack (lp : LightingPacket) : NormalFrame (pack lp) := by
  intro hflag
  rw [fld_pack_all, maskEncode_all_eq_one] at hflag
  rw [fld_pack_high, fld_pack_low, hflag]
  decide

theorem normalFrame_defaultWf : NormalFrame defaultWf := by
  intro hflag
  exact absurd hflag (by decide)

/-! ## The register invariant under each operation on the state

A field that the operation leaves alone keeps its clause as it stands. -/

theorem regInv_reset : RegInv State.reset where
  lp := decodedPacket_defaultLp
  wf := normalFrame_defaultWf
  cf := rfl
  illegal := by decide
  recorded := by decide
  record := nofun
  seen := rfl

theorem regInv_resetEdge (s : State) : RegInv (resetEdge s) := { regInv_reset with }

section
variable {s : State}

theorem regInv_passEdge (h : RegInv s) : RegInv (passEdge s) := { h with }

theorem regInv_idleEdge (h : RegInv s) : RegInv (idleEdge s) :=
  { h with
    illegal := by simpa using h.illegal
    recorded := by simpa using h.recorded }

theorem regInv_writeLp (h : RegInv s) {v : LightingPacket} (hv : DecodedPacket v) : RegInv (writeLp v s) :=
  { h with lp := hv }

theorem regInv_writeWf (h : RegInv s) {v : WireFrame} (hv : NormalFrame v) : RegInv (writeWf v s) :=
  { h with wf := hv }

theorem regInv_writeCf (h : RegInv s) : RegInv (writeCf defaultCf s) := { h with cf := rfl }

theorem regInv_writeOk (h : RegInv s) (v : Bit) : RegInv (writeOk v s) := { h with }

/-- A legal code clears `ILLEGAL` (R215), so there is nothing to record. -/
theorem regInv_completeLegal (h : RegInv s) {op : OpCode} (hop : ¬(op = 0b110 ∨ op = 0b111)) :
    RegInv (completeLegal op s) :=
  { h with
    illegal := by
      rw [completeLegal_status, statusIllegal_legalStatus, statusLastOp_legalStatus]
      exact iff_of_false (by decide) hop
    recorded := by
      rw [completeLegal_status, statusIllegal_legalStatus]
      exact fun hill => absurd hill (by decide) }

/-- A reserved code sets `ILLEGAL`, and the record holds it or the one it held before (R212, log 4). -/
theorem regInv_takeIllegal (h : RegInv s) {op : OpCode} (hop : op = 0b110 ∨ op = 0b111) :
    RegInv (takeIllegal op s) :=
  { h with
    illegal := by
      rw [takeIllegal_status, statusIllegal_illegalStatus, statusLastOp_illegalStatus]
      exact iff_of_true rfl hop
    recorded := by simp
    record := by
      intro c hc
      rw [takeIllegal_requestFault] at hc
      rcases Option.or_eq_some_iff.mp hc with hold | ⟨_, hnew⟩
      · exact h.record c hold
      · obtain rfl := Option.some.inj hnew
        exact hop }

theorem regInv_afterRequest (h : RegInv s) (i : Instr) : RegInv (afterRequest i s) := by
  cases i with
  | pack lp => exact regInv_completeLegal (regInv_writeWf h (normalFrame_pack lp)) (by decide)
  | unpack wf => exact regInv_completeLegal (regInv_writeLp h (decodedPacket_unpack wf)) (by decide)
  | cfverify cf => exact regInv_completeLegal (regInv_writeOk h _) (by decide)
  | lpdef => exact regInv_completeLegal (regInv_writeLp h decodedPacket_defaultLp) (by decide)
  | wfdef => exact regInv_completeLegal (regInv_writeWf h normalFrame_defaultWf) (by decide)
  | cfdef => exact regInv_completeLegal (regInv_writeCf h) (by decide)
  | reserved110 => exact regInv_takeIllegal h (.inl rfl)
  | reserved111 => exact regInv_takeIllegal h (.inr rfl)

theorem regInv_afterEdge (h : RegInv s) (p : Ports) : RegInv (afterEdge p s) := by
  unfold afterEdge
  cases edgeKind p with
  | reset => exact regInv_resetEdge s
  | idle => exact regInv_idleEdge h
  | accept r => exact regInv_afterRequest h (decode r)

/-! ## Strict reads and the mark of a first reset (R32, U9, log 6) -/

theorem strictReadsFault_of_not_resetSeen (h : s.resetSeen = false) : StrictReadsFault s :=
  ⟨strictRead_fault _ h, strictRead_fault _ h, strictRead_fault _ h, strictRead_fault _ h, strictRead_fault _ h⟩

theorem strictReadsAnswer_of_resetSeen (h : s.resetSeen = true) : StrictReadsAnswer s :=
  ⟨strictRead_answer _ h, strictRead_answer _ h, strictRead_answer _ h, strictRead_answer _ h,
    strictRead_answer _ h⟩

end

/-- A run sets the mark exactly if one of its edges is a reset edge, and never clears it. -/
theorem afterEdges_resetSeen (ps : List Ports) (s : State) :
    (afterEdges ps s).resetSeen = (ps.any (fun p => decide (p.rst = 1)) || s.resetSeen) := by
  induction ps generalizing s with
  | nil => rfl
  | cons p ps ih =>
    calc (afterEdges (p :: ps) s).resetSeen
        = (afterEdges ps (afterEdge p (passEdge s))).resetSeen := rfl
      _ = (ps.any (fun q => decide (q.rst = 1)) || (decide (p.rst = 1) || s.resetSeen)) := by
        rw [ih, afterEdge_resetSeen, passEdge_resetSeen]
      _ = ((p :: ps).any (fun q => decide (q.rst = 1)) || s.resetSeen) := by
        rw [List.any_cons, Bool.or_left_comm, Bool.or_assoc]

theorem afterEdges_resetSeen_of_no_reset {ps : List Ports} (h : ∀ p ∈ ps, p.rst = 0) (s : State) :
    (afterEdges ps s).resetSeen = s.resetSeen := by
  have hnone : ps.any (fun p => decide (p.rst = 1)) = false := by
    rw [List.any_eq_false]
    intro p hp
    simp [h p hp]
  rw [afterEdges_resetSeen, hnone, Bool.false_or]

theorem afterEdges_resetSeen_of_reset {ps : List Ports} (h : ∃ p ∈ ps, p.rst = 1) (s : State) :
    (afterEdges ps s).resetSeen = true := by
  have hsome : ps.any (fun p => decide (p.rst = 1)) = true := by simpa using h
  rw [afterEdges_resetSeen, hsome, Bool.true_or]

/-! ## The statements -/

/-- Settles O51: a step is an edge on the state whose inputs are used up, and each kind of edge keeps the
invariant. -/
theorem everyStepKeepsTheRegisterInvariant : Obligations.EveryStepKeepsTheRegisterInvariant := by
  intro s t hinv hstep
  rw [step_eq_afterEdge] at hstep
  obtain rfl := Host.Outcome.next.inj hstep
  exact regInv_afterEdge (regInv_passEdge hinv) (sampledPorts s)

/-- Settles O30, by what each request writes to each register. -/
theorem operationsWriteOnlyTheirRegisters : Obligations.OperationsWriteOnlyTheirRegisters := by
  refine ⟨fun i s => ⟨_, exec_eq_afterRequest i s, ?lastOp, ?wf, ?lp, ?ok, ?cf⟩,
    fun p ps s hrst hvalid => ?idle⟩
  case lastOp => rw [afterRequest_status, statusLastOp_statusResult]
  case wf =>
    intro hpack hwfdef
    rw [afterRequest_resWf, wfResult_eq_none hpack hwfdef, Option.getD_none]
  case lp =>
    intro hunpack hlpdef
    rw [afterRequest_resLp, lpResult_eq_none hunpack hlpdef, Option.getD_none]
  case ok =>
    intro hcfverify
    rw [afterRequest_resOk, okResult_eq_none hcfverify, Option.getD_none]
  case cf =>
    intro hcfdef
    rw [afterRequest_resCf, cfResult_eq_none hcfdef, Option.getD_none]
  case idle =>
    refine ⟨_, step_eq_afterEdge _, ?_⟩
    simp [afterEdge, edgeKind_idle hrst hvalid, idleStatus]

/-- Settles O31: what a request writes is a function of the request alone. -/
theorem resultsDependOnInputsAlone : Obligations.ResultsDependOnInputsAlone := by
  intro i s s'
  refine ⟨_, _, exec_eq_afterRequest i s, exec_eq_afterRequest i s',
    (afterRequest_status i s).trans (afterRequest_status i s').symm, ?_⟩
  simp only [afterRequest_resLp, afterRequest_resWf, afterRequest_resCf, afterRequest_resOk]
  exact ⟨getD_eq_or_kept _ _ _, getD_eq_or_kept _ _ _, getD_eq_or_kept _ _ _, getD_eq_or_kept _ _ _⟩

/-- Settles O56: the mark of a first reset decides every strict read, and a run sets it at a reset edge alone. -/
theorem strictReadsFaultBeforeReset : Obligations.StrictReadsFaultBeforeReset := by
  refine ⟨fun s => strictReadsFault_of_not_resetSeen, fun ps hnone => ?_, fun ps s hsome => ?_⟩
  · exact ⟨_, runOver_eq_afterEdges ps _,
      strictReadsFault_of_not_resetSeen (afterEdges_resetSeen_of_no_reset hnone State.powerUp)⟩
  · exact ⟨_, runOver_eq_afterEdges ps s,
      strictReadsAnswer_of_resetSeen (afterEdges_resetSeen_of_reset hsome s)⟩

/-- Settles O29, by the place of each field in the value. -/
theorem statusReadsAsItsFields : Obligations.StatusReadsAsItsFields := by
  intro st
  have hlt : st.toNat < 32 := st.isLt
  rw [statusLastOp_toNat, statusIllegal_toNat, statusValid_toNat]
  omega

/-- Settles O50. -/
theorem resetMeetsTheRegisterInvariant : Obligations.ResetMeetsTheRegisterInvariant :=
  regInv_reset

end Sys2Proof.Machine
end

section
/-! SUPPORT. The bytes of the two wire forms (spec/20_memory.md): where each bit of a frame stands in its bytes, the
frame from its bytes, and the fields that lie in more than one byte; and that a repeated request leaves the same
state. At the end, the statements settled with these. -/

namespace Sys2Proof.Machine

/-! ## Fields of fields and of concatenations (R12, R14) -/

theorem fld_fld {n : Nat} (F : BitVec n) {o w p v : Nat} (h : p + v ≤ w) :
    fld (fld F o w) p v = fld F (o + p) v := by
  apply BitVec.eq_of_getLsbD_eq
  intro i hi
  have hin : p + i < w := by omega
  rw [getLsbD_fld, getLsbD_fld, getLsbD_fld, Nat.add_assoc]
  simp [hin]

/-- A field is its high bits before its low bits. -/
theorem fld_add_width {n : Nat} (F : BitVec n) (o v w : Nat) :
    fld F o (v + w) = fld F (o + w) v ++ fld F o w := by
  apply BitVec.eq_of_getLsbD_eq
  intro i hi
  rw [BitVec.getLsbD_append, getLsbD_fld, getLsbD_fld, getLsbD_fld]
  by_cases hlow : i < w
  · simp [hlow, hi]
  · have hhigh : i - w < v := by omega
    have hplace : o + w + (i - w) = o + i := by omega
    simp [hlow, hi, hhigh, hplace]

theorem fld_append_low {v w : Nat} (high : BitVec v) (low : BitVec w) : fld (high ++ low) 0 w = low := by
  apply BitVec.eq_of_getLsbD_eq
  intro i hiw
  rw [getLsbD_fld, BitVec.getLsbD_append]
  simp [hiw]

theorem fld_append_high {v w : Nat} (high : BitVec v) (low : BitVec w) {o : Nat} (u : Nat) (h : w ≤ o) :
    fld (high ++ low) o u = fld high (o - w) u := by
  apply BitVec.eq_of_getLsbD_eq
  intro i _
  have habove : ¬o + i < w := by omega
  rw [getLsbD_fld, getLsbD_fld, BitVec.getLsbD_append, if_neg habove, Nat.sub_add_comm h]

/-! ## The bytes of a frame of any length

`wireToBytes` and `controlToBytes` are the bytes of a frame of 8 and of 3 bytes. -/

/-- The first `n` bytes of a frame, the byte of its lowest bits first. -/
def frameBytes (n : Nat) {m : Nat} (F : BitVec m) : List Byte :=
  (List.range n).map (fun k => fld F (8 * k) 8)

theorem wireToBytes_eq_frameBytes (F : WireFrame) : wireToBytes F = frameBytes 8 F := rfl

theorem controlToBytes_eq_frameBytes (C : ControlFrame) : controlToBytes C = frameBytes 3 C := rfl

@[simp] theorem length_frameBytes (n : Nat) {m : Nat} (F : BitVec m) : (frameBytes n F).length = n := by
  simp [frameBytes]

theorem getD_frameBytes {n m k : Nat} (F : BitVec m) (hk : k < n) :
    (frameBytes n F).getD k 0 = fld F (8 * k) 8 := by
  simp [frameBytes, List.getD_eq_getElem?_getD, hk]

/-- Bit `j` of byte `k` is bit `8k+j` of the frame (R52, R53). -/
theorem getLsbD_frameBytes {n m k j : Nat} (F : BitVec m) (hk : k < n) (hj : j < 8) :
    ((frameBytes n F).getD k 0).getLsbD j = F.getLsbD (8 * k + j) := by
  rw [getD_frameBytes F hk, getLsbD_fld, decide_eq_true hj, Bool.true_and]

/-- The byte at the low end of a frame is its first byte, and the bytes of the rest follow. -/
theorem frameBytes_append (n : Nat) {m : Nat} (high : BitVec m) (b : Byte) :
    frameBytes (n + 1) (high ++ b) = b :: frameBytes n high := by
  have hfirst : fld (high ++ b) 0 8 = b := fld_append_low high b
  have hrest (k : Nat) : fld (high ++ b) (8 * (k + 1)) 8 = fld high (8 * k) 8 :=
    fld_append_high high b 8 (by omega)
  simp [frameBytes, List.range_succ_eq_map, hrest, hfirst]

theorem frameBytes_one (b : Byte) : frameBytes 1 b = [b] := by
  simp [frameBytes, fld]

/-- A frame of `n` bytes has no bit outside them. -/
theorem frameBytes_injective (n : Nat) {F G : BitVec (8 * n)} (h : frameBytes n F = frameBytes n G) : F = G := by
  apply BitVec.eq_of_getLsbD_eq
  intro i hi
  have hbyte : i / 8 < n := by omega
  have hbit : i % 8 < 8 := Nat.mod_lt _ (by decide)
  rw [← Nat.div_add_mod i 8, ← getLsbD_frameBytes F hbyte hbit, h, getLsbD_frameBytes G hbyte hbit]

/-- Where every `n` bytes are the bytes of the frame they give, the bytes of a frame give it back. -/
theorem ofBytes_frameBytes {n : Nat} {ofBytes : List Byte → Except Refusal (BitVec (8 * n))}
    (h : ∀ bs, bs.length = n → ∃ F, ofBytes bs = .ok F ∧ frameBytes n F = bs) (F : BitVec (8 * n)) :
    ofBytes (frameBytes n F) = .ok F := by
  obtain ⟨G, hG, hbytes⟩ := h _ (length_frameBytes n F)
  rw [hG, frameBytes_injective n hbytes]

/-! ## The frame from its bytes (R52, R53) -/

theorem wireToBytes_wireOfBytes (bs : List Byte) (h : bs.length = 8) :
    ∃ F, wireOfBytes bs = .ok F ∧ wireToBytes F = bs := by
  match bs, h with
  | [b0, b1, b2, b3, b4, b5, b6, b7], _ =>
    refine ⟨_, rfl, ?_⟩
    simp only [wireToBytes_eq_frameBytes, frameBytes_append, frameBytes_one]

theorem controlToBytes_controlOfBytes (bs : List Byte) (h : bs.length = 3) :
    ∃ C, controlOfBytes bs = .ok C ∧ controlToBytes C = bs := by
  match bs, h with
  | [b0, b1, b2], _ =>
    refine ⟨_, rfl, ?_⟩
    simp only [controlToBytes_eq_frameBytes, frameBytes_append, frameBytes_one]

/-! ## Fields across bytes (R54) -/

/-- A field inside one byte, read from the frame and from the byte. -/
theorem fld_getD_frameBytes {n m k p v : Nat} (F : BitVec m) (hk : k < n) (hv : p + v ≤ 8) :
    fld ((frameBytes n F).getD k 0) p v = fld F (8 * k + p) v := by
  rw [getD_frameBytes F hk, fld_fld F hv]

/-- A field that leaves byte `k` at its end: `u` bits of it stand in the byte, and the others from the next byte on. -/
theorem fld_split_at_byteEnd {n m k p u : Nat} (F : BitVec m) (v : Nat) (hk : k < n) (hu : p + u = 8) :
    fld F (8 * k + p) (v + u) = fld F (8 * (k + 1)) v ++ fld ((frameBytes n F).getD k 0) p u := by
  have hnext : 8 * k + p + u = 8 * (k + 1) := by omega
  rw [fld_add_width, hnext, fld_getD_frameBytes F hk hu.le]

/-- A field that ends in the next byte: `v` bits of it stand there. -/
theorem fld_of_two_bytes {n m k p u v : Nat} (F : BitVec m) (hk : k + 1 < n) (hu : p + u = 8) (hv : v ≤ 8) :
    fld F (8 * k + p) (v + u) =
      fld ((frameBytes n F).getD (k + 1) 0) 0 v ++ fld ((frameBytes n F).getD k 0) p u := by
  have hrest : fld ((frameBytes n F).getD (k + 1) 0) 0 v = fld F (8 * (k + 1)) v :=
    fld_getD_frameBytes (p := 0) F hk (by omega)
  rw [fld_split_at_byteEnd F v (Nat.lt_of_succ_lt hk) hu, hrest]

/-! ## A request made twice -/

/-- The record holds the first reserved code, so the same code a second time leaves it (log 4). -/
theorem takeIllegal_takeIllegal (op : OpCode) (s : State) :
    takeIllegal op (takeIllegal op s) = takeIllegal op s := by
  simp [takeIllegal]

/-- What a request writes does not depend on the state (R30), so it writes the same again. -/
theorem afterRequest_afterRequest (i : Instr) (s : State) :
    afterRequest i (afterRequest i s) = afterRequest i s := by
  cases i with
  | reserved110 => exact takeIllegal_takeIllegal _ s
  | reserved111 => exact takeIllegal_takeIllegal _ s
  | _ => rfl

/-! ## The statements -/

/-- Settles O32: a second request finds every register it writes at the value it writes. -/
theorem requestsAreIdempotent : Obligations.RequestsAreIdempotent := by
  intro i s
  refine ⟨afterRequest i s, exec_eq_afterRequest i s, ?_⟩
  rw [exec_eq_afterRequest, afterRequest_afterRequest]

/-- Settles O44, by the bytes of a frame of any length. -/
theorem wireFrameByteOrder : Obligations.WireFrameByteOrder :=
  ⟨fun F => ⟨length_frameBytes 8 F, fun _ _ => getLsbD_frameBytes F,
    ofBytes_frameBytes (n := 8) wireToBytes_wireOfBytes F⟩, wireToBytes_wireOfBytes⟩

/-- Settles O45, by the bytes of a frame of any length. -/
theorem controlFrameByteOrder : Obligations.ControlFrameByteOrder :=
  ⟨fun C => ⟨length_frameBytes 3 C, fun _ _ => getLsbD_frameBytes C,
    ofBytes_frameBytes (n := 3) controlToBytes_controlOfBytes C⟩, controlToBytes_controlOfBytes⟩

/-- Settles O46: the list of fields is finite, and each field of it that leaves a byte is cut at the byte's end. -/
theorem straddlingFieldsSplitAcrossBytes : Obligations.StraddlingFieldsSplitAcrossBytes := by
  refine ⟨by decide, fun F => ⟨?field2, ?field7, ?field12⟩, fun C => ?verification⟩
  case field2 => exact fld_of_two_bytes (n := 8) (k := 0) (p := 7) (u := 1) (v := 2) F (by decide) rfl (by decide)
  case field7 => exact fld_of_two_bytes (n := 8) (k := 2) (p := 7) (u := 1) (v := 2) F (by decide) rfl (by decide)
  case field12 => exact fld_of_two_bytes (n := 8) (k := 4) (p := 6) (u := 2) (v := 1) F (by decide) rfl (by decide)
  case verification =>
    have hbytes12 : fld C 8 13 = fld ((controlToBytes C).getD 2 0) 0 5 ++ fld ((controlToBytes C).getD 1 0) 0 8 :=
      fld_of_two_bytes (n := 3) (k := 1) (p := 0) (u := 8) (v := 5) C (by decide) rfl (by decide)
    calc fld C 5 16
        = fld C 8 13 ++ fld ((controlToBytes C).getD 0 0) 5 3 :=
          fld_split_at_byteEnd (n := 3) (k := 0) (p := 5) (u := 3) C 13 (by decide) rfl
      _ = fld ((controlToBytes C).getD 2 0) 0 5 ++ fld ((controlToBytes C).getD 1 0) 0 8 ++
            fld ((controlToBytes C).getD 0 0) 5 3 := by rw [hbytes12]

end Sys2Proof.Machine
end

section
/-! SUPPORT. The encodings (spec/30_encoding.md): requests and the buses they read, the lines of assembler, and the
layout tables. At the end, the statements settled with these. -/

namespace Sys2Proof.Machine

/-! ## Requests (R71, R72, R87) -/

/-- The instruction's own lemma of `Laws.RoundTrip`, for every instruction. -/
theorem roundTrip_statement (i : Instr) : Laws.RoundTrip.Statement i := by
  cases i with
  | pack lp => exact Laws.RoundTrip.pack lp
  | unpack wf => exact Laws.RoundTrip.unpack wf
  | cfverify cf => exact Laws.RoundTrip.cfverify cf
  | lpdef => exact Laws.RoundTrip.lpdef
  | wfdef => exact Laws.RoundTrip.wfdef
  | cfdef => exact Laws.RoundTrip.cfdef
  | reserved110 => exact Laws.RoundTrip.reserved110
  | reserved111 => exact Laws.RoundTrip.reserved111

@[simp] theorem decode_encodeOn (bg : Buses) (i : Instr) : decode (encodeOn bg i) = i :=
  (roundTrip_statement i).2 bg

theorem encodeOn_decode (r : Request) : encodeOn r.toBuses (decode r) = r := by
  obtain ⟨b, op⟩ := r
  rcases opCode_cases op with rfl | rfl | rfl | rfl | rfl | rfl | rfl | rfl <;> rfl

/-- A request is read through its code and the one bus the code names (R72). -/
theorem decode_congr {r r' : Request} (hop : r.op = r'.op) (hlp : r.op = 0b000 → r.lpIn = r'.lpIn)
    (hwf : r.op = 0b001 → r.wfIn = r'.wfIn) (hcf : r.op = 0b010 → r.cfIn = r'.cfIn) :
    decode r = decode r' := by
  obtain ⟨b, op⟩ := r
  obtain ⟨b', op'⟩ := r'
  obtain rfl : op = op' := hop
  rcases opCode_cases op with rfl | rfl | rfl | rfl | rfl | rfl | rfl | rfl
  · exact congrArg Instr.pack (hlp rfl)
  · exact congrArg Instr.unpack (hwf rfl)
  · exact congrArg Instr.cfverify (hcf rfl)
  all_goals rfl

/-- An edge depends on the buses only through the request's reading. -/
theorem afterEdge_congr {p q : Ports} (hrst : p.rst = q.rst) (hvalid : p.reqValid = q.reqValid)
    (hdecode : decode p.request = decode q.request) (s : State) : afterEdge p s = afterEdge q s := by
  rcases edgeKind_cases p with ⟨hr, hk⟩ | ⟨hr, hv, hk⟩ | ⟨hr, hv, hk⟩
  · simp [afterEdge, hk, edgeKind_reset (hrst ▸ hr)]
  · simp [afterEdge, hk, edgeKind_idle (hrst ▸ hr) (hvalid ▸ hv)]
  · simp [afterEdge, hk, edgeKind_accept (hrst ▸ hr) (hvalid ▸ hv), hdecode]

/-! ## What the checks on a line's numbers accept (R86) -/

theorem lineWellFormed_pack_iff {type : InstrumentType} {levels : List Nat} {mem fade mask : Nat} :
    lineWellFormed (.pack type levels mem fade mask) = true ↔
      levels.length = 16 ∧ (∀ l ∈ levels, l ≤ 255) ∧ mem ≤ 255 ∧ fade ≤ 65535 ∧ mask ≤ 0xFF := by
  simp [lineWellFormed, WellFormed.levels, WellFormed.mem, WellFormed.fade, WellFormed.mask, Nat.lt_succ_iff,
    and_assoc]

theorem lineWellFormed_unpack_iff {wf : Nat} : lineWellFormed (.unpack wf) = true ↔ wf < 2 ^ 64 := by
  simp [lineWellFormed, WellFormed.wf]

theorem lineWellFormed_cfverify_iff {cf : Nat} : lineWellFormed (.cfverify cf) = true ↔ cf < 2 ^ 24 := by
  simp [lineWellFormed, WellFormed.cf]

theorem lineWellFormed_op_iff {code : Nat} :
    lineWellFormed (.op code) = true ↔ code = 0b110 ∨ code = 0b111 := by
  simp [lineWellFormed, WellFormed.reservedCode]

/-! ## What a line assembles to (R86) -/

theorem assemble_of_wellFormed (bg : Ports) {l : Line} (h : lineWellFormed l = true) :
    assemble bg l = some (linePorts bg l) := by
  simp [assemble, h]

theorem assemble_of_not_wellFormed (bg : Ports) {l : Line} (h : ¬lineWellFormed l = true) :
    assemble bg l = none := by
  simp [assemble, h]

/-- A well-formed line that presents the operation `i` is an edge that accepts `i`. -/
theorem assemble_accepts (bg : Ports) {l : Line} {i : Instr} (h : lineWellFormed l = true)
    (hports : linePorts bg l = Ports.ofRequest (encodeOn bg.toBuses i)) :
    ∃ p, assemble bg l = some p ∧ edgeKind p = .accept p.request ∧ decode p.request = i := by
  refine ⟨_, assemble_of_wellFormed bg h, ?_⟩
  rw [hports]
  exact ⟨edgeKind_accept rfl rfl, decode_encodeOn bg.toBuses i⟩

/-! ## The packet of a PACK line (R24, R86) -/

/-- A number in the range of its width is the value of its word. -/
theorem toNat_ofNat_of_lt {w n : Nat} (h : n < 2 ^ w) : (BitVec.ofNat w n).toNat = n := by
  rw [BitVec.toNat_ofNat, Nat.mod_eq_of_lt h]

section
variable {type : InstrumentType} {levels : List Nat} {mem fade mask : Nat}

theorem linePacket_level (hlength : levels.length = 16) (hlevels : ∀ l ∈ levels, l ≤ 255) (i : Lane) :
    levels[i.val]? = some (linePacket type levels mem fade mask).pwmLevels[i].toNat := by
  have hi : i.val < levels.length := hlength ▸ i.isLt
  have hle : levels[i.val] ≤ 255 := hlevels _ (List.getElem_mem hi)
  simp [linePacket, hi, Nat.mod_eq_of_lt (Nat.lt_succ_of_le hle)]

theorem linePacket_memoryIndex_toNat (h : mem ≤ 255) :
    (linePacket type levels mem fade mask).memoryIndex.toNat = mem :=
  toNat_ofNat_of_lt (Nat.lt_succ_of_le h)

theorem linePacket_fadeTimeMs_toNat (h : fade ≤ 65535) :
    (linePacket type levels mem fade mask).fadeTimeMs.toNat = fade :=
  toNat_ofNat_of_lt (Nat.lt_succ_of_le h)

theorem linePacket_treeMask_toNat (h : mask ≤ 0xFF) :
    (linePacket type levels mem fade mask).treeMask.toNat = mask :=
  toNat_ofNat_of_lt (Nat.lt_succ_of_le h)

end

/-! ## The statements -/

/-- Settles O4: the request decodes alike, and the edge depends on no more of the buses. -/
theorem unnamedBusesHaveNoEffect : Obligations.UnnamedBusesHaveNoEffect := by
  intro p q ps s hrst hvalid hop hlp hwf hcf
  have hdecode : decode p.request = decode q.request := decode_congr hop hlp hwf hcf
  simp only [step_eq_afterEdge, sampledPorts_drive_cons, passEdge_drive_cons, afterEdge_congr hrst hvalid hdecode]

/-- Settles O47, line by line: a line in its ranges is an edge that accepts its operation, any other is refused. -/
theorem assembledLinesAreTheirEdges : Obligations.AssembledLinesAreTheirEdges := by
  intro bg
  refine ⟨?reset, ?idle, ?pack, ?packRefused, ?unpack, ?unpackRefused, ?cfverify, ?cfverifyRefused,
    assemble_accepts bg rfl rfl, assemble_accepts bg rfl rfl, assemble_accepts bg rfl rfl,
    assemble_accepts bg rfl rfl, assemble_accepts bg rfl rfl, ?opRefused, ?illFormed⟩
  case reset => exact ⟨_, assemble_of_wellFormed bg rfl, edgeKind_reset rfl⟩
  case idle => exact ⟨_, assemble_of_wellFormed bg rfl, edgeKind_idle rfl rfl⟩
  case pack =>
    intro type levels mem fade mask hlength hlevels hmem hfade hmask
    have hwell : lineWellFormed (.pack type levels mem fade mask) = true :=
      lineWellFormed_pack_iff.2 ⟨hlength, hlevels, hmem, hfade, hmask⟩
    obtain ⟨p, hassemble, hkind, hdecode⟩ := assemble_accepts bg hwell rfl
    exact ⟨p, _, hassemble, hkind, hdecode, rfl, linePacket_level hlength hlevels, linePacket_memoryIndex_toNat hmem,
      linePacket_fadeTimeMs_toNat hfade, linePacket_treeMask_toNat hmask⟩
  case packRefused =>
    intro type levels mem fade mask hout
    refine assemble_of_not_wellFormed bg fun hwell => ?_
    obtain ⟨hlength, hlevels, hmem, hfade, hmask⟩ := lineWellFormed_pack_iff.1 hwell
    rcases hout with hout | ⟨l, hl, hout⟩ | hout | hout | hout
    · exact hout hlength
    · exact Nat.not_lt.2 (hlevels l hl) hout
    · exact Nat.not_lt.2 hmem hout
    · exact Nat.not_lt.2 hfade hout
    · exact Nat.not_lt.2 hmask hout
  case unpack =>
    intro wf hwf
    obtain ⟨p, hassemble, hkind, hdecode⟩ := assemble_accepts bg (lineWellFormed_unpack_iff.2 hwf) rfl
    exact ⟨p, _, hassemble, hkind, hdecode, toNat_ofNat_of_lt hwf⟩
  case unpackRefused =>
    intro wf hout
    exact assemble_of_not_wellFormed bg fun hwell => Nat.not_lt.2 hout (lineWellFormed_unpack_iff.1 hwell)
  case cfverify =>
    intro cf hcf
    obtain ⟨p, hassemble, hkind, hdecode⟩ := assemble_accepts bg (lineWellFormed_cfverify_iff.2 hcf) rfl
    exact ⟨p, _, hassemble, hkind, hdecode, toNat_ofNat_of_lt hcf⟩
  case cfverifyRefused =>
    intro cf hout
    exact assemble_of_not_wellFormed bg fun hwell => Nat.not_lt.2 hout (lineWellFormed_cfverify_iff.1 hwell)
  case opRefused =>
    intro code h110 h111
    exact assemble_of_not_wellFormed bg fun hwell => (lineWellFormed_op_iff.1 hwell).elim h110 h111
  case illFormed =>
    intro l hill
    exact assemble_of_not_wellFormed bg (Bool.eq_false_iff.1 hill)

/-- Settles O1: each code is one case of the decoder. -/
theorem codesSelectTheirOperations : Obligations.CodesSelectTheirOperations :=
  fun _ => ⟨rfl, rfl, rfl, rfl, rfl, rfl, rfl, rfl⟩

/-- Settles O3. -/
theorem requestsRoundTrip : Obligations.RequestsRoundTrip :=
  ⟨fun i bg => ⟨(roundTrip_statement i).1, decode_encodeOn bg i⟩, encodeOn_decode⟩

/-- Settles O42: a finite table. -/
theorem levelOffsetsFollowTheTable : Obligations.LevelOffsetsFollowTheTable := by
  unfold Obligations.LevelOffsetsFollowTheTable
  decide

/-- Settles O43: two finite tables, of 64 and of 24 bits. -/
theorem fieldsPartitionTheFrames : Obligations.FieldsPartitionTheFrames := by
  refine ⟨?wire, ?control⟩
  case wire => decide
  case control => decide

end Sys2Proof.Machine
end

section
/-! SUPPORT. The quantizer (spec/41_quantizer.md): its levels of R102, the blocks of 32 levels that share a code, and
the lanes of PACK and UNPACK. At the end, the statements settled with these. -/

namespace Sys2Proof.Machine

/-! ## The codes of levels (R100) -/

theorem quantize_toNat (l : Level) : (quantize l).toNat = l.toNat / 32 := by
  have hlt : l.toNat < 256 := l.isLt
  have hfld : (quantize l).toNat = l.toNat / 32 % 8 := by
    simp [quantize, fld, Nat.shiftRight_eq_div_pow]
  omega

/-- Levels of one code stand in one block of 32 (R100), so they are at most 31 apart. -/
theorem le_add_of_quantize_eq {l m : Level} (h : quantize l = quantize m) : l.toNat ≤ m.toNat + 31 := by
  have hblock : l.toNat / 32 = m.toNat / 32 := by rw [← quantize_toNat, h, quantize_toNat]
  omega

/-! ## The levels of codes (R101, R102) -/

theorem levelTable_eq_map_dequantize :
    levelTable = (List.range 8).map (fun c => dequantize (BitVec.ofNat 3 c)) := by
  decide

theorem map_toNat_levelTable : levelTable.map BitVec.toNat = [0, 36, 73, 109, 146, 182, 219, 255] := by
  decide

theorem toNat_mem_iff_mem_levelTable (l : Level) :
    l.toNat ∈ [0, 36, 73, 109, 146, 182, 219, 255] ↔ l ∈ levelTable := by
  rw [← map_toNat_levelTable]
  exact List.mem_map_of_injective BitVec.toNat_injective

/-- A level is its code's own level exactly if it is the level of some code (R103). -/
theorem dequantize_quantize_eq_iff (l : Level) : dequantize (quantize l) = l ↔ l ∈ levelTable := by
  constructor
  · intro h
    rw [← h]
    exact dequantize_mem_levelTable _
  · intro h
    rw [levelTable_eq_map_dequantize] at h
    obtain ⟨c, -, rfl⟩ := List.mem_map.1 h
    rw [quantize_dequantize]

/-! ## The lanes (R104) -/

theorem afterRequest_pack_lane (p : LightingPacket) (s : State) (i : Lane) :
    fld (afterRequest (.pack p) s).resWf (off i) 3 = quantize p.pwmLevels[i] := by
  rw [afterRequest_resWf]
  exact fld_pack_level p i

theorem afterRequest_unpack_lane (F : WireFrame) (s : State) (i : Lane) :
    (afterRequest (.unpack F) s).resLp.pwmLevels[i] = dequantize (fld F (off i) 3) := by
  rw [afterRequest_resLp]
  exact unpack_level F i

/-! ## The statements -/

/-- Settles O16: each lane's result is a function of its own lane of the operand. -/
theorem lanesDoNotInteract : Obligations.LanesDoNotInteract := by
  refine fun i s => ⟨fun p => ?pack, fun F => ?unpack, fun p q hlevel => ?packAgree, fun F G hfield => ?unpackAgree⟩
  case pack => exact ⟨_, exec_eq_afterRequest _ s, afterRequest_pack_lane p s i⟩
  case unpack => exact ⟨_, exec_eq_afterRequest _ s, afterRequest_unpack_lane F s i⟩
  case packAgree =>
    refine ⟨_, _, exec_eq_afterRequest _ s, exec_eq_afterRequest _ s, ?_⟩
    calc fld (afterRequest (.pack p) s).resWf (off i) 3
        = quantize p.pwmLevels[i] := afterRequest_pack_lane p s i
      _ = quantize q.pwmLevels[i] := by rw [hlevel]
      _ = fld (afterRequest (.pack q) s).resWf (off i) 3 := (afterRequest_pack_lane q s i).symm
  case unpackAgree =>
    refine ⟨_, _, exec_eq_afterRequest _ s, exec_eq_afterRequest _ s, ?_⟩
    calc (afterRequest (.unpack F) s).resLp.pwmLevels[i]
        = dequantize (fld F (off i) 3) := afterRequest_unpack_lane F s i
      _ = dequantize (fld G (off i) 3) := congrArg dequantize hfield
      _ = (afterRequest (.unpack G) s).resLp.pwmLevels[i] := (afterRequest_unpack_lane G s i).symm

/-- Settles O34: the quantizer divides, and the table holds the level of each code. -/
theorem quantizerFollowsItsTable : Obligations.QuantizerFollowsItsTable := by
  refine ⟨quantize_toNat, ?_⟩
  rw [← map_toNat_levelTable, levelTable_eq_map_dequantize, List.map_map]
  rfl

/-- Settles O35: a level and the level of its code share the code, hence the top three bits and the block of 32. -/
theorem quantizerLaws : Obligations.QuantizerLaws := by
  have hcode (l : Level) : quantize (dequantize (quantize l)) = quantize l := quantize_dequantize _
  refine ⟨fun l => ?code, quantize_dequantize, fun l => ⟨?fixed, hcode l⟩, fun l => ⟨?above, ?below⟩, ?reached⟩
  case code => exact Nat.le_of_lt_succ (quantize l).isLt
  case fixed => rw [toNat_mem_iff_mem_levelTable, dequantize_quantize_eq_iff]
  case above => exact le_add_of_quantize_eq (hcode l)
  case below => exact le_add_of_quantize_eq (hcode l).symm
  case reached => decide

end Sys2Proof.Machine
end

section
/-! SUPPORT. The time codec (spec/42_time_codec.md): the duration that comes back from the code, and the duration from
which the code is full. At the end, the statements settled with these. -/

namespace Sys2Proof.Machine

/-! ## From a duration to its code and back (R122, law 1) -/

theorem decodeTime_encodeTime_toNat {W : Nat} (hW : 15 ≤ W) (ms : BitVec W) :
    (decodeTime W (encodeTime ms)).toNat = 100 * min 255 (ms.toNat / 100) := by
  rw [decodeTime_toNat W hW, encodeTime_toNat, Nat.mul_comm]

theorem decodeTime_encodeTime_le {W : Nat} (hW : 15 ≤ W) (ms : BitVec W) :
    (decodeTime W (encodeTime ms)).toNat ≤ ms.toNat :=
  calc (decodeTime W (encodeTime ms)).toNat
      = 100 * min 255 (ms.toNat / 100) := decodeTime_encodeTime_toNat hW ms
    _ ≤ 100 * (ms.toNat / 100) := Nat.mul_le_mul_left 100 (Nat.min_le_right _ _)
    _ ≤ ms.toNat := Nat.mul_div_le _ _

/-- Division loses the rest modulo 100, and saturation what is above 25500: nothing else is lost. -/
theorem decodeTime_encodeTime_eq_iff {W : Nat} (hW : 15 ≤ W) (ms : BitVec W) :
    decodeTime W (encodeTime ms) = ms ↔ ms.toNat % 100 = 0 ∧ ms.toNat ≤ 25500 := by
  rw [← BitVec.toNat_inj, decodeTime_encodeTime_toNat hW]
  constructor
  · intro hback
    have hle : min 255 (ms.toNat / 100) ≤ 255 := Nat.min_le_left _ _
    omega
  · rintro ⟨hmultiple, hrange⟩
    have hcode : min 255 (ms.toNat / 100) = ms.toNat / 100 := Nat.min_eq_right (by omega)
    omega

/-! ## Saturation and order (R122, laws 2 and 4) -/

theorem encodeTime_eq_max {W : Nat} {ms : BitVec W} (h : 25500 ≤ ms.toNat) : (encodeTime ms).toNat = 255 := by
  have hfull : 255 ≤ ms.toNat / 100 := Nat.div_le_div_right (c := 100) h
  rw [encodeTime_toNat, Nat.min_eq_left hfull]

theorem encodeTime_mono {W : Nat} {a b : BitVec W} (h : a.toNat ≤ b.toNat) :
    (encodeTime a).toNat ≤ (encodeTime b).toNat := by
  rw [encodeTime_toNat, encodeTime_toNat]
  exact min_le_min_left 255 (Nat.div_le_div_right h)

/-! ## The statements -/

/-- Settles O36: neither the code nor the duration of a code wraps. -/
theorem timeCodecValues : Obligations.TimeCodecValues :=
  fun W hW => ⟨encodeTime_toNat, decodeTime_toNat W hW⟩

/-- Settles O37, law by law. -/
theorem timeCodecLaws : Obligations.TimeCodecLaws := by
  refine fun W hW => ⟨fun ms => ⟨?exact, ?value, ?bound⟩, fun ms => ?saturates, ?undoes, fun a b => ?monotone⟩
  case exact => exact decodeTime_encodeTime_eq_iff hW ms
  case value => exact decodeTime_encodeTime_toNat hW ms
  case bound => exact decodeTime_encodeTime_le hW ms
  case saturates => exact encodeTime_eq_max
  case undoes => exact encodeTime_decodeTime W hW
  case monotone => exact encodeTime_mono

end Sys2Proof.Machine
end

section
/-! SUPPORT. The tree mask (spec/43_tree_mask.md): the value of each sub-field, the masks that survive the wire, and
the units a mask addresses. At the end, the statements settled with these. -/

namespace Sys2Proof.Machine

/-! ## The sub-fields of a mask (R141) -/

theorem maskEncode_low_toNat (m : TreeMask) : (maskEncode m).low.toNat = m.toNat % 32 := by
  simp [maskEncode, fld]

theorem maskEncode_high_toNat (m : TreeMask) : (maskEncode m).high.toNat = m.toNat / 32 % 2 := by
  simp [maskEncode, fld, Nat.shiftRight_eq_div_pow]

/-! ## The mask of sub-fields (R144, R145) -/

theorem maskDecode_of_all {a : AddressFields} (h : a.all = 1) : maskDecode a = Config.allUnits :=
  if_pos h

/-- Without the flag, the high bit stands above the five low bits, so the two do not meet. -/
theorem maskDecode_toNat_of_not_all {a : AddressFields} (h : a.all ≠ 1) :
    (maskDecode a).toNat = a.low.toNat + 32 * a.high.toNat := by
  have hlow : a.low.toNat < 2 ^ 5 := a.low.isLt
  have hhigh : a.high.toNat < 2 := a.high.isLt
  have hlow8 : (a.low.setWidth 8).toNat = a.low.toNat := BitVec.toNat_setWidth_of_le (by decide)
  have hhigh8 : (a.high.setWidth 8 <<< 5).toNat = a.high.toNat <<< 5 := by
    rw [BitVec.toNat_shiftLeft, BitVec.toNat_setWidth_of_le (by decide), Nat.shiftLeft_eq]
    omega
  calc (maskDecode a).toNat
      = (a.low.setWidth 8 ||| a.high.setWidth 8 <<< 5).toNat := by rw [maskDecode, if_neg h]
    _ = a.high.toNat <<< 5 ||| a.low.toNat := by rw [BitVec.toNat_or, hlow8, hhigh8, Nat.or_comm]
    _ = a.high.toNat <<< 5 + a.low.toNat := (Nat.shiftLeft_add_eq_or_of_lt hlow _).symm
    _ = a.low.toNat + 32 * a.high.toNat := by rw [Nat.shiftLeft_eq]; omega

/-! ## The masks that survive the wire (R146) -/

theorem and_0x3F_toNat (m : TreeMask) : (m &&& 0x3F).toNat = m.toNat % 64 :=
  Nat.and_two_pow_sub_one_eq_mod m.toNat 6

theorem and_0x3F_eq_self_iff (m : TreeMask) : m &&& 0x3F = m ↔ m.toNat ≤ 0x3F := by
  rw [← BitVec.toNat_inj, and_0x3F_toNat]
  omega

theorem and_0x3F_ne_allUnits (m : TreeMask) : m &&& 0x3F ≠ Config.allUnits := by
  intro h
  have hsix : m.toNat % 64 = 0xFF := by rw [← and_0x3F_toNat, h]; rfl
  omega

theorem maskDecode_maskEncode_eq_self_iff (m : TreeMask) :
    maskDecode (maskEncode m) = m ↔ m.toNat ≤ 0x3F ∨ m = Config.allUnits := by
  rw [maskDecode_maskEncode]
  by_cases hall : m = Config.allUnits
  · simp [hall]
  · rw [if_neg hall, or_iff_left hall, and_0x3F_eq_self_iff]

/-! ## The units a mask addresses (R140) -/

theorem addresses_none_iff (m : TreeMask) : addresses m none = true ↔ m = Config.allUnits := by
  simp [addresses]

theorem addresses_some_iff (m : TreeMask) (n : Nat) :
    addresses m (some n) = true ↔ m = Config.allUnits ∨ (1 ≤ n ∧ n ≤ 6) ∧ m.getLsbD (n - 1) = true := by
  simp only [addresses, Bool.or_eq_true, beq_iff_eq, Bool.and_eq_true, decide_eq_true_iff]
  rfl

theorem addresses_zero (unit : Option Nat) : addresses 0x00 unit = false := by
  cases unit with
  | none => rfl
  | some n => simp [addresses, Config.allUnits]

theorem getLsbD_0x3F {k : Nat} (hk : k < 6) : (0x3F : TreeMask).getLsbD k = true := by
  revert k; decide

/-- The bits 6 and 7 that the wire drops (R143) are those of no unit. -/
theorem addresses_and_0x3F {m : TreeMask} (hm : m ≠ Config.allUnits) (unit : Option Nat) :
    addresses (m &&& 0x3F) unit = addresses m unit := by
  have hkept := and_0x3F_ne_allUnits m
  rw [Bool.eq_iff_iff]
  cases unit with
  | none => simp only [addresses_none_iff, hm, hkept]
  | some n =>
    simp only [addresses_some_iff, hm, hkept, false_or]
    refine and_congr_right fun ⟨_, hle⟩ => ?_
    rw [BitVec.getLsbD_and, getLsbD_0x3F (by omega), Bool.and_true]

theorem addresses_maskDecode_maskEncode (m : TreeMask) (unit : Option Nat) :
    addresses (maskDecode (maskEncode m)) unit = addresses m unit := by
  rw [maskDecode_maskEncode]
  by_cases hall : m = Config.allUnits
  · rw [if_pos hall, hall]
  · rw [if_neg hall, addresses_and_0x3F hall]

/-! ## The mask UNPACK writes -/

theorem unpack_pack_mask (lp : LightingPacket) :
    (unpack (pack lp)).treeMask = maskDecode (maskEncode lp.treeMask) :=
  congrArg maskDecode (addressOf_pack lp)

/-- R147, from the range of the decoder. -/
theorem unpack_mask_not_in_gap (F : WireFrame) :
    ¬(0x40 ≤ (unpack F).treeMask.toNat ∧ (unpack F).treeMask.toNat ≤ 0xFE) := by
  rcases (decodedPacket_unpack F).mask with hlow | hall
  · omega
  · rw [hall]
    decide

theorem unpack_mask_of_flag {F : WireFrame} (h : F.getLsbD 16 = true) :
    (unpack F).treeMask = Config.allUnits :=
  have hall : fld F 16 1 = 1 := by rw [fld_bit, h]; rfl
  maskDecode_of_all hall

/-- With the flag set, UNPACK reads every field but the low and the high address bits (R145). -/
theorem unpack_congr_of_flag {F G : WireFrame} (hflag : F.getLsbD 16 = true)
    (hbits : ∀ b, b ≠ 47 → ¬(51 ≤ b ∧ b ≤ 55) → F.getLsbD b = G.getLsbD b) : unpack F = unpack G := by
  have hfld {o w : Nat} (hhigh : o + w ≤ 47 ∨ 48 ≤ o) (hlow : o + w ≤ 51 ∨ 56 ≤ o) : fld F o w = fld G o w :=
    fld_congr F G o w fun b _ _ => hbits b (by omega) (by omega)
  refine packet_ext _ _ ?type (fun i => ?level) rfl ?fade ?mask
  case type => exact congrArg InstrumentType.ofBit (hfld (by decide) (by decide))
  case level =>
    obtain ⟨_, _, hhigh, hlow⟩ := off_apart_others i
    rw [unpack_level, unpack_level, hfld hhigh (.inl hlow)]
  case fade => exact congrArg (decodeTime 16) (hfld (by decide) (by decide))
  case mask =>
    have hflag' : G.getLsbD 16 = true := (hbits 16 (by decide) (by decide)).symm.trans hflag
    rw [unpack_mask_of_flag hflag, unpack_mask_of_flag hflag']

/-! ## The statements -/

/-- Settles O18: the two frames unpack to one packet, and what UNPACK leaves is a function of the packet. -/
theorem unpackIgnoresStaleAddressBits : Obligations.UnpackIgnoresStaleAddressBits := by
  intro F G s hflag hbits
  refine ⟨_, exec_eq_afterRequest _ s, ?_, unpack_mask_of_flag hflag⟩
  rw [exec_eq_afterRequest, afterRequest, afterRequest, unpack_congr_of_flag hflag hbits]

/-- Settles O19: the range is the decoder's, and PACK of a packet with the mask is a frame that reaches it. -/
theorem unpackedMasksAreInRange : Obligations.UnpackedMasksAreInRange := by
  refine ⟨fun F s => ⟨_, exec_eq_afterRequest _ s, unpack_mask_not_in_gap F⟩, fun m s hm => ?reached⟩
  case reached =>
    have hsurvives : maskDecode (maskEncode m) = m := (maskDecode_maskEncode_eq_self_iff m).2 hm
    exact ⟨pack { defaultLp with treeMask := m }, _, exec_eq_afterRequest _ s,
      (unpack_pack_mask _).trans hsurvives⟩

/-- Settles O41: UNPACK of PACK's frame writes the round trip of the mask, which keeps every unit's bit. -/
theorem wireKeepsTheAddressedUnits : Obligations.WireKeepsTheAddressedUnits := by
  intro lp s unit
  refine ⟨_, _, exec_eq_afterRequest _ s, exec_eq_afterRequest _ _, ?_⟩
  calc addresses (unpack (pack lp)).treeMask unit
      = addresses (maskDecode (maskEncode lp.treeMask)) unit := by rw [unpack_pack_mask]
    _ = addresses lp.treeMask unit := addresses_maskDecode_maskEncode _ unit

/-- Settles O38, sub-field by sub-field. -/
theorem maskCodecValues : Obligations.MaskCodecValues := by
  refine ⟨fun m => ⟨maskEncode_low_toNat m, maskEncode_high_toNat m, maskEncode_all_eq_one⟩, fun low high all => ?_⟩
  by_cases hall : all = 1
  · rw [if_pos hall, maskDecode_of_all hall]
    rfl
  · rw [if_neg hall, maskDecode_toNat_of_not_all hall]

/-- Settles O39. -/
theorem maskRoundTrip : Obligations.MaskRoundTrip :=
  fun m => ⟨maskDecode_maskEncode m, maskDecode_maskEncode_eq_self_iff m⟩

/-- Settles O40: units with a number, units without an address, and the empty mask. -/
theorem masksAddressTheirUnits : Obligations.MasksAddressTheirUnits := by
  refine ⟨fun m n hone hsix => ?numbered, addresses_none_iff, addresses_zero⟩
  exact (addresses_some_iff m n).trans (or_congr_right (and_iff_right ⟨hone, hsix⟩))

end Sys2Proof.Machine
end

section
/-! SUPPORT. PACK and UNPACK (spec/44_pack_unpack.md): the value of each field PACK writes and of each field UNPACK
writes, the packet that comes back from the wire, the frame that comes back from a packet, and the default values. At
the end, the statements settled with these. -/

namespace Sys2Proof.Machine

/-! ## Bits and codes as values -/

theorem fld_bit_eq_one_iff {n : Nat} (F : BitVec n) (o : Nat) : fld F o 1 = 1 ↔ F.getLsbD o = true := by
  rw [fld_bit]
  cases F.getLsbD o <;> decide

theorem toBit_eq_one_iff (t : InstrumentType) : t.toBit = 1 ↔ t = .memory := by
  cases t <;> decide

theorem dequantize_toNat (c : LevelCode) :
    (dequantize c).toNat = 32 * c.toNat + 4 * c.toNat + c.toNat / 2 := by
  revert c; decide

/-! ## The fields PACK writes (R160) -/

theorem pack_type_eq_one_iff (lp : LightingPacket) : fld (pack lp) 0 1 = 1 ↔ lp.instrumentType = .memory := by
  rw [fld_pack_type, toBit_eq_one_iff]

theorem pack_level_toNat (lp : LightingPacket) (i : Lane) :
    (fld (pack lp) (off i) 3).toNat = lp.pwmLevels[i].toNat / 32 := by
  rw [fld_pack_level, quantize_toNat]

theorem pack_fade_toNat (lp : LightingPacket) :
    (fld (pack lp) 56 8).toNat = min 255 (lp.fadeTimeMs.toNat / 100) := by
  rw [fld_pack_fade, encodeTime_toNat]

theorem pack_low_toNat (lp : LightingPacket) : (fld (pack lp) 51 5).toNat = lp.treeMask.toNat % 32 := by
  rw [fld_pack_low, maskEncode_low_toNat]

theorem pack_all_eq_one_iff (lp : LightingPacket) : fld (pack lp) 16 1 = 1 ↔ lp.treeMask = Config.allUnits := by
  rw [fld_pack_all, maskEncode_all_eq_one]

theorem pack_with_memoryIndex (lp : LightingPacket) (m : MemoryIndex) :
    pack { lp with memoryIndex := m } = pack lp := rfl

/-! ## Setting bits outside a field -/

theorem fld_or_of_fld_eq_zero {n : Nat} (F : BitVec n) {M : BitVec n} {o w : Nat} (h : fld M o w = 0) :
    fld (F ||| M) o w = fld F o w := by
  rw [fld_or, h]
  exact BitVec.or_zero

/-- R161: the type bit is the whole difference, since the lanes quantize alike for both types. -/
theorem pack_memory_eq_pack_dimmer_or_one (lp : LightingPacket) :
    pack { lp with instrumentType := .memory } = pack { lp with instrumentType := .dimmer } ||| 1 := by
  refine wire_ext _ _ ?type (fun i => ?level) ?fade ?low ?high ?all
  case type =>
    have hbit : (1 : Bit) = 0 ||| fld (1 : WireFrame) 0 1 := by decide
    rw [fld_or, fld_pack_type, fld_pack_type]
    exact hbit
  case level =>
    have hone : ∀ i : Lane, fld (1 : WireFrame) (off i) 3 = 0 := by decide
    rw [fld_or_of_fld_eq_zero _ (hone i), fld_pack_level, fld_pack_level]
  case fade => rw [fld_or_of_fld_eq_zero _ (by decide), fld_pack_fade, fld_pack_fade]
  case low => rw [fld_or_of_fld_eq_zero _ (by decide), fld_pack_low, fld_pack_low]
  case high => rw [fld_or_of_fld_eq_zero _ (by decide), fld_pack_high, fld_pack_high]
  case all => rw [fld_or_of_fld_eq_zero _ (by decide), fld_pack_all, fld_pack_all]

theorem pack_dimmer_bit_zero (lp : LightingPacket) :
    (pack { lp with instrumentType := .dimmer }).getLsbD 0 = false := by
  rw [Bool.eq_false_iff, ne_eq, ← fld_bit_eq_one_iff, pack_type_eq_one_iff]
  exact InstrumentType.noConfusion

/-! ## The fields UNPACK writes (R163) -/

theorem unpack_mask_toNat (F : WireFrame) :
    (unpack F).treeMask.toNat =
      if F.getLsbD 16 then 0xFF else (fld F 51 5).toNat + 32 * (fld F 47 1).toNat := by
  by_cases hflag : F.getLsbD 16 = true
  · rw [if_pos hflag, unpack_mask_of_flag hflag]
    rfl
  · rw [if_neg hflag, unpack_mask, maskDecode_toNat_of_not_all (mt (fld_bit_eq_one_iff F 16).1 hflag)]

theorem unpack_type_eq_ite (F : WireFrame) :
    (unpack F).instrumentType = if F.getLsbD 0 then .memory else .dimmer := by
  rw [unpack_type, fld_bit]
  cases F.getLsbD 0 <;> rfl

theorem unpack_level_toNat (F : WireFrame) (i : Lane) :
    (unpack F).pwmLevels[i].toNat =
      32 * (fld F (off i) 3).toNat + 4 * (fld F (off i) 3).toNat + (fld F (off i) 3).toNat / 2 := by
  rw [unpack_level, dequantize_toNat]

theorem unpack_fade_toNat (F : WireFrame) : (unpack F).fadeTimeMs.toNat = 100 * (fld F 56 8).toNat := by
  rw [unpack_fade, decodeTime_toNat 16 (by decide), Nat.mul_comm]

/-! ## From a packet to its frame and back (R168) -/

theorem unpack_pack_type (lp : LightingPacket) : (unpack (pack lp)).instrumentType = lp.instrumentType := by
  rw [unpack_type, fld_pack_type, ofBit_toBit]

theorem unpack_pack_level (lp : LightingPacket) (i : Lane) :
    (unpack (pack lp)).pwmLevels[i] = dequantize (quantize lp.pwmLevels[i]) := by
  rw [unpack_level, fld_pack_level]

theorem unpack_pack_fade_toNat (lp : LightingPacket) :
    (unpack (pack lp)).fadeTimeMs.toNat = 100 * min 255 (lp.fadeTimeMs.toNat / 100) := by
  rw [unpack_fade_toNat, pack_fade_toNat]

/-! ## From a frame to its packet and back (R169) -/

/-- Bit 47 and bits 55..51: the address bits that PACK sets for the mask 0xFF. -/
def addressOnes : WireFrame := 0x00F8800000000000

/-- Without the flag the sub-fields come back. The flag hides the low and high bits (R145), which then come back as
ones (R142). -/
theorem maskEncode_maskDecode (a : AddressFields) :
    maskEncode (maskDecode a) = if a.all = 1 then { low := 0b11111, high := 1, all := 1 } else a := by
  obtain ⟨low, high, all⟩ := a
  revert low high all; decide

/-- UNPACK loses nothing outside the address, so the frame that comes back is known by its address. -/
theorem pack_unpack_eq_of_address {F G : WireFrame} (htype : fld G 0 1 = fld F 0 1)
    (hlevel : ∀ i : Lane, fld G (off i) 3 = fld F (off i) 3) (hfade : fld G 56 8 = fld F 56 8)
    (haddress : addressOf G = maskEncode (maskDecode (addressOf F))) : pack (unpack F) = G := by
  have hback : addressOf (pack (unpack F)) = addressOf G := (addressOf_pack _).trans haddress.symm
  refine wire_ext _ _ ?type (fun i => ?level) ?fade
    (congrArg AddressFields.low hback) (congrArg AddressFields.high hback) (congrArg AddressFields.all hback)
  case type => rw [fld_pack_type, unpack_type, toBit_ofBit, htype]
  case level => rw [fld_pack_level, unpack_level, quantize_dequantize, hlevel]
  case fade => rw [fld_pack_fade, unpack_fade, encodeTime_decodeTime 16 (by decide), hfade]

theorem addressOf_or_addressOnes (F : WireFrame) :
    addressOf (F ||| addressOnes) = { low := 0b11111, high := 1, all := fld F 16 1 } := by
  have hlow : fld (F ||| addressOnes) 51 5 = 0b11111 := by rw [fld_or]; exact BitVec.or_allOnes
  have hhigh : fld (F ||| addressOnes) 47 1 = 1 := by rw [fld_or]; exact BitVec.or_allOnes
  have hall : fld (F ||| addressOnes) 16 1 = fld F 16 1 := fld_or_of_fld_eq_zero F (by decide)
  exact (AddressFields.mk.injEq ..).mpr ⟨hlow, hhigh, hall⟩

theorem pack_unpack_of_flag {F : WireFrame} (h : F.getLsbD 16 = true) :
    pack (unpack F) = F ||| addressOnes := by
  have hlanes : ∀ i : Lane, fld addressOnes (off i) 3 = 0 := by decide
  have hall : fld F 16 1 = 1 := (fld_bit_eq_one_iff F 16).2 h
  refine pack_unpack_eq_of_address ?type (fun i => ?level) ?fade ?address
  case type => exact fld_or_of_fld_eq_zero F (by decide)
  case level => exact fld_or_of_fld_eq_zero F (hlanes i)
  case fade => exact fld_or_of_fld_eq_zero F (by decide)
  case address =>
    rw [addressOf_or_addressOnes, maskEncode_maskDecode, hall]
    exact (if_pos hall).symm

theorem pack_unpack_of_not_flag {F : WireFrame} (h : ¬F.getLsbD 16 = true) : pack (unpack F) = F := by
  have hall : ¬(addressOf F).all = 1 := mt (fld_bit_eq_one_iff F 16).1 h
  refine pack_unpack_eq_of_address rfl (fun _ => rfl) rfl ?_
  rw [maskEncode_maskDecode, if_neg hall]

theorem pack_unpack (F : WireFrame) :
    pack (unpack F) = if F.getLsbD 16 then F ||| addressOnes else F := by
  by_cases hflag : F.getLsbD 16 = true
  · rw [if_pos hflag, pack_unpack_of_flag hflag]
  · rw [if_neg hflag, pack_unpack_of_not_flag hflag]

/-! ## The default values (R166, R167) -/

theorem defaultLp_level (i : Lane) : defaultLp.pwmLevels[i] = 0 :=
  Vector.getElem_replicate i.isLt

theorem unpack_zero : unpack 0 = defaultLp := by
  refine packet_ext _ _ ?type (fun i => ?level) rfl ?fade ?mask
  case type => rw [unpack_type, fld_zero]; rfl
  case level => rw [unpack_level, fld_zero, defaultLp_level]; rfl
  case fade => rw [unpack_fade, fld_zero]; rfl
  case mask => rw [unpack_mask, fld_zero, fld_zero, fld_zero]; rfl

/-- The frame 0 has no flag, so it comes back from its packet. -/
theorem pack_defaultLp : pack defaultLp = 0 := by
  rw [← unpack_zero, pack_unpack_of_not_flag (by decide)]

/-! ## The statements -/

/-- Settles O48: each field of the packet goes through its own codec and back. -/
theorem unpackOfPack : Obligations.UnpackOfPack := fun lp s =>
  ⟨_, _, exec_eq_afterRequest (.pack lp) s, exec_eq_afterRequest (.unpack (pack lp)) _,
    unpack_pack_type lp, unpack_pack_level lp, unpack_pack_fade_toNat lp,
    (unpack_pack_mask lp).trans (maskDecode_maskEncode _), unpack_memoryIndex _⟩

/-- Settles O49: every field but the address comes back as it was, and the address by its flag. -/
theorem packOfUnpack : Obligations.PackOfUnpack := fun F s =>
  ⟨_, _, exec_eq_afterRequest (.unpack F) s, exec_eq_afterRequest (.pack (unpack F)) _, pack_unpack F⟩

/-- Settles O13, field by field. -/
theorem packWritesTheWireFrame : Obligations.PackWritesTheWireFrame := fun lp s =>
  ⟨_, exec_eq_afterRequest (.pack lp) s,
    pack_type_eq_one_iff lp, pack_level_toNat lp, pack_fade_toNat lp, pack_low_toNat lp, fld_pack_high lp,
    pack_all_eq_one_iff lp,
    (afterRequest_status (.pack lp) s).trans (by decide : legalStatus 0b000 = 0b00001),
    afterRequest_resLp _ s, afterRequest_resCf _ s, afterRequest_resOk _ s⟩

/-- Settles O15: the memory index is not read, and the type reaches bit 0 alone. -/
theorem memoryModeQuantizesLikeDimmer : Obligations.MemoryModeQuantizesLikeDimmer := by
  intro lp m s
  refine ⟨_, _, exec_eq_afterRequest _ s, exec_eq_afterRequest _ s, ?_, pack_dimmer_bit_zero lp⟩
  calc pack { lp with instrumentType := .memory, memoryIndex := m }
      = pack { lp with instrumentType := .memory } := pack_with_memoryIndex { lp with instrumentType := .memory } m
    _ = pack { lp with instrumentType := .dimmer } ||| 1 := pack_memory_eq_pack_dimmer_or_one lp

/-- Settles O17, field by field. -/
theorem unpackWritesThePacket : Obligations.UnpackWritesThePacket := fun F s =>
  ⟨_, exec_eq_afterRequest (.unpack F) s,
    unpack_mask_toNat F, unpack_type_eq_ite F, unpack_level_toNat F, unpack_fade_toNat F, unpack_memoryIndex F,
    (afterRequest_status (.unpack F) s).trans (by decide : legalStatus 0b001 = 0b00101),
    afterRequest_resWf _ s, afterRequest_resCf _ s, afterRequest_resOk _ s⟩

/-- Settles O14: what PACK leaves is a function of the frame, and the frame does not read the memory index. -/
theorem packIgnoresTheMemoryIndex : Obligations.PackIgnoresTheMemoryIndex := by
  intro lp m s
  refine ⟨_, exec_eq_afterRequest _ s, ?_⟩
  rw [exec_eq_afterRequest, afterRequest, afterRequest, pack_with_memoryIndex]

/-- Settles O20: the packet of the frame 0 is the default one. -/
theorem lpdefWritesTheDefaultPacket : Obligations.LpdefWritesTheDefaultPacket := fun s =>
  ⟨_, exec_eq_afterRequest .lpdef s, rfl, defaultLp_level, rfl, rfl, rfl, unpack_zero.symm,
    (afterRequest_status .lpdef s).trans (by decide : legalStatus 0b011 = 0b01101),
    afterRequest_resWf _ s, afterRequest_resCf _ s, afterRequest_resOk _ s⟩

/-- Settles O21: the frame of the default packet is 0. -/
theorem wfdefWritesTheDefaultFrame : Obligations.WfdefWritesTheDefaultFrame := fun s =>
  ⟨_, exec_eq_afterRequest .wfdef s, rfl, pack_defaultLp.symm,
    (afterRequest_status .wfdef s).trans (by decide : legalStatus 0b100 = 0b10001),
    afterRequest_resLp _ s, afterRequest_resCf _ s, afterRequest_resOk _ s⟩

end Sys2Proof.Machine
end

section
/-! SUPPORT. The ControlFrame (spec/45_control_frame.md): the verdict, the frame a host composes, what a receiver reads
of a frame, and the values that pass. At the end, the statements settled with these. -/

namespace Sys2Proof.Machine

/-! ## The verdict (R190) -/

theorem verify_eq_ite (C : ControlFrame) : verify C = if fld C 5 16 = 0x0E76 then 1 else 0 := by
  by_cases hconst : fld C 5 16 = 0x0E76
  · rw [if_pos hconst]
    exact congrArg BitVec.ofBool (beq_iff_eq.2 hconst)
  · rw [if_neg hconst]
    exact congrArg BitVec.ofBool (beq_eq_false_iff_ne.2 hconst)

theorem verify_eq_one_iff (C : ControlFrame) : verify C = 1 ↔ fld C 5 16 = 0x0E76 := by
  rw [verify_eq_ite]
  exact Ne.ite_eq_left_iff (by decide)

theorem afterRequest_cfverify_resOk (C : ControlFrame) (s : State) :
    (afterRequest (.cfverify C) s).resOk = verify C :=
  afterRequest_resOk _ s

/-! ## The frame a host composes (R81, R196) -/

section
variable (mode : BitVec 2) (unitId : BitVec 3)

theorem fld_composeControl_mode : fld (composeControl mode unitId) 0 2 = mode :=
  fld_append_low _ mode

/-- Above the mode stands the frame's rest: padding, constant and unit id. -/
theorem fld_composeControl_above_mode {o : Nat} (w : Nat) (h : 2 ≤ o) :
    fld (composeControl mode unitId) o w =
      fld ((0 : BitVec 3) ++ Config.cfVerifyConst ++ unitId) (o - 2) w :=
  fld_append_high _ mode w h

theorem fld_composeControl_unit : fld (composeControl mode unitId) 2 3 = unitId := by
  rw [fld_composeControl_above_mode mode unitId 3 (by decide)]
  exact fld_append_low _ unitId

/-- Above the unit id stand the constant and the padding. -/
theorem fld_composeControl_above_unit {o : Nat} (w : Nat) (h : 5 ≤ o) :
    fld (composeControl mode unitId) o w = fld ((0 : BitVec 3) ++ Config.cfVerifyConst) (o - 5) w := by
  rw [fld_composeControl_above_mode mode unitId w (by omega), fld_append_high _ unitId w (by omega), Nat.sub_sub]

theorem fld_composeControl_verification : fld (composeControl mode unitId) 5 16 = 0x0E76 := by
  rw [fld_composeControl_above_unit mode unitId 16 (by decide)]
  exact fld_append_low _ Config.cfVerifyConst

theorem fld_composeControl_padding : fld (composeControl mode unitId) 21 3 = 0 := by
  rw [fld_composeControl_above_unit mode unitId 3 (by decide)]
  decide

theorem verify_composeControl : verify (composeControl mode unitId) = 1 :=
  (verify_eq_one_iff _).2 (fld_composeControl_verification mode unitId)

end

/-! ## What a receiver reads of a frame (R82, R194) -/

/-- R82: the bits 2 and 3 read as no mode. -/
theorem controlMode_ofBits_eq_some_iff (b : BitVec 2) (m : ControlMode) :
    ControlMode.ofBits b = some m ↔ (b = 0 ∧ m = .setTreeId) ∨ (b = 1 ∧ m = .idQueryMode) := by
  cases m with
  | setTreeId => revert b; decide
  | idQueryMode => revert b; decide

theorem receiveControl_eq_ok_iff (verdict : Bit) (C : ControlFrame) (m : ControlMode) (u : BitVec 3) :
    receiveControl verdict C = .ok (m, u) ↔
      verdict = 1 ∧ controlUnit C = u ∧ ControlMode.ofBits (controlMode C) = some m := by
  by_cases hverdict : verdict = 1
  · cases hmode : ControlMode.ofBits (controlMode C) with
    | none => simp [receiveControl, hverdict, hmode]
    | some k => simp [receiveControl, hverdict, hmode, and_comm]
  · rw [receiveControl, if_neg hverdict]
    exact iff_of_false nofun fun h => hverdict h.1

/-! ## The values that pass (R193)

Such a value is known by its free bits: the 3 of the padding, and the 5 of mode and unit id. -/

/-- The padding of a ControlFrame value, and its mode and unit id in one. -/
def freeBits (n : Nat) : Nat × Nat := (n / 2 ^ 21, n % 2 ^ 5)

/-- The value that carries the constant between the free bits `p`. -/
def passingValue (p : Nat × Nat) : Nat := 2 ^ 21 * p.1 + 2 ^ 5 * 0x0E76 + p.2

theorem verify_ofNat_eq_one_iff {n : Nat} (h : n < 2 ^ 24) :
    verify (BitVec.ofNat 24 n) = 1 ↔ n / 2 ^ 5 % 2 ^ 16 = 0x0E76 := by
  have hfield : (fld (BitVec.ofNat 24 n) 5 16).toNat = n / 2 ^ 5 % 2 ^ 16 := by
    rw [fld, BitVec.extractLsb'_toNat, toNat_ofNat_of_lt h, Nat.shiftRight_eq_div_pow]
  rw [verify_eq_one_iff, ← BitVec.toNat_inj, hfield]
  rfl

/-- The values that pass: what R193 counts. -/
def passingValues : Finset Nat := (Finset.range (2 ^ 24)).filter (fun n => verify (BitVec.ofNat 24 n) = 1)

theorem mem_passingValues_iff (n : Nat) :
    n ∈ passingValues ↔ n < 2 ^ 24 ∧ n / 2 ^ 5 % 2 ^ 16 = 0x0E76 := by
  rw [passingValues, Finset.mem_filter, Finset.mem_range]
  exact and_congr_right verify_ofNat_eq_one_iff

/-- All free bits: 8 values of the padding, and 32 of mode and unit id. -/
def freeRange : Finset (Nat × Nat) := Finset.range (2 ^ 3) ×ˢ Finset.range (2 ^ 5)

theorem mem_freeRange_iff (p : Nat × Nat) : p ∈ freeRange ↔ p.1 < 2 ^ 3 ∧ p.2 < 2 ^ 5 := by
  rw [freeRange, Finset.mem_product, Finset.mem_range, Finset.mem_range]

/-- A value that passes and its free bits give each other. -/
theorem card_passingValues_eq_card_freeRange : passingValues.card = freeRange.card := by
  refine Finset.card_nbij' freeBits passingValue (fun n hn => ?free) (fun p hp => ?passes) (fun n hn => ?back)
    (fun p hp => ?forth)
  case free =>
    obtain ⟨hlt, -⟩ := (mem_passingValues_iff n).1 hn
    simp only [Finset.mem_coe, mem_freeRange_iff, freeBits]
    omega
  case passes =>
    obtain ⟨hpad, hlow⟩ := (mem_freeRange_iff p).1 hp
    simp only [Finset.mem_coe, mem_passingValues_iff, passingValue]
    omega
  case back =>
    obtain ⟨-, hconst⟩ := (mem_passingValues_iff n).1 hn
    simp only [passingValue, freeBits]
    omega
  case forth =>
    obtain ⟨hpad, hlow⟩ := (mem_freeRange_iff p).1 hp
    simp only [passingValue, freeBits, Prod.ext_iff]
    omega

/-! ## The statements -/

/-- Settles O24: one value passes for each choice of the 8 free bits. -/
theorem twoHundredFiftySixFramesPass : Obligations.TwoHundredFiftySixFramesPass :=
  calc passingValues.card
      = freeRange.card := card_passingValues_eq_card_freeRange
    _ = 2 ^ 3 * 2 ^ 5 := by rw [freeRange, Finset.card_product, Finset.card_range, Finset.card_range]
    _ = 256 := rfl

/-- Settles O26: the verdict is that of the frame itself, and the receiver asks for it and for an assigned mode. -/
theorem receiverActsOnVerifiedFramesOnly : Obligations.ReceiverActsOnVerifiedFramesOnly := by
  intro C s
  refine ⟨_, exec_eq_afterRequest _ s, fun m u => ?_⟩
  rw [afterRequest_cfverify_resOk, receiveControl_eq_ok_iff, verify_eq_one_iff, controlMode_ofBits_eq_some_iff]
  rfl

/-- Settles O22: the default frame is the composed one of mode and unit id 0. -/
theorem cfdefWritesTheDefaultControlFrame : Obligations.CfdefWritesTheDefaultControlFrame := fun s =>
  ⟨_, _, exec_eq_afterRequest .cfdef s, (by decide : defaultCf = 0x01CEC0),
    (by decide : controlToBytes defaultCf = [0xC0, 0xCE, 0x01]),
    (afterRequest_status .cfdef s).trans (by decide : legalStatus 0b101 = 0b10101),
    afterRequest_resLp _ s, afterRequest_resWf _ s, afterRequest_resOk _ s,
    exec_eq_afterRequest _ _, (afterRequest_cfverify_resOk _ _).trans (verify_composeControl 0 0)⟩

/-- Settles O23. -/
theorem cfverifyWritesTheVerdict : Obligations.CfverifyWritesTheVerdict := fun C s =>
  ⟨_, exec_eq_afterRequest (.cfverify C) s, (afterRequest_cfverify_resOk C s).trans (verify_eq_ite C),
    (afterRequest_status (.cfverify C) s).trans (by decide : legalStatus 0b010 = 0b01001),
    afterRequest_resLp _ s, afterRequest_resWf _ s, afterRequest_resCf _ s⟩

/-- Settles O25, field by field. -/
theorem composedControlFramesPass : Obligations.ComposedControlFramesPass := fun mode unitId s =>
  ⟨_, exec_eq_afterRequest _ s, (afterRequest_cfverify_resOk _ s).trans (verify_composeControl mode unitId),
    fld_composeControl_mode mode unitId, fld_composeControl_unit mode unitId,
    fld_composeControl_padding mode unitId⟩

end Sys2Proof.Machine
end

section
/-! SUPPORT. The one error condition (spec/60_exceptions.md): what taking it records, which requests set and clear
`ILLEGAL`, and the edges that leave no fault recorded. At the end, the statements settled with these. -/

namespace Sys2Proof.Machine

/-! ## Taking the condition (R212) -/

section
variable (op : OpCode) (s : State)

theorem takeIllegal_status_fields :
    statusValid (takeIllegal op s).status = 1 ∧ statusIllegal (takeIllegal op s).status = 1 ∧
      statusLastOp (takeIllegal op s).status = op :=
  ⟨statusValid_illegalStatus op, statusIllegal_illegalStatus op, statusLastOp_illegalStatus op⟩

theorem takeIllegal_result_registers :
    (takeIllegal op s).resLp = s.resLp ∧ (takeIllegal op s).resWf = s.resWf ∧
      (takeIllegal op s).resCf = s.resCf ∧ (takeIllegal op s).resOk = s.resOk :=
  ⟨takeIllegal_resLp op s, takeIllegal_resWf op s, takeIllegal_resCf op s, takeIllegal_resOk op s⟩

/-- The record keeps an older code, or takes this one (log 4). -/
theorem takeIllegal_requestFault_ne_none : (takeIllegal op s).requestFault ≠ none := by
  rw [takeIllegal_requestFault]
  cases s.requestFault with
  | none => exact Option.some_ne_none op
  | some c => exact Option.some_ne_none c

end

/-! ## Legal and reserved requests -/

theorem opcode_decode (r : Request) : (decode r).opcode = r.op :=
  congrArg Request.op (encodeOn_decode r)

theorem statusIllegal_statusResult_eq_one_iff (i : Instr) :
    statusIllegal (statusResult i) = 1 ↔ i.opcode = 0b110 ∨ i.opcode = 0b111 := by
  cases i with
  | reserved110 => exact iff_of_true (statusIllegal_illegalStatus _) (.inl rfl)
  | reserved111 => exact iff_of_true (statusIllegal_illegalStatus _) (.inr rfl)
  | _ => simp [statusResult, Instr.opcode]

theorem bit_eq_zero_iff_ne_one (b : Bit) : b = 0 ↔ b ≠ 1 := by
  revert b; decide

/-- A request leaves `ILLEGAL` 0 exactly if its code is legal (R212, R243). -/
theorem statusIllegal_afterRequest_eq_zero_iff (r : Request) (s : State) :
    statusIllegal (afterRequest (decode r) s).status = 0 ↔ ¬(r.op = 0b110 ∨ r.op = 0b111) := by
  rw [afterRequest_status, bit_eq_zero_iff_ne_one, ne_eq, statusIllegal_statusResult_eq_one_iff, opcode_decode]

/-- Only a reserved code touches the fault record (log 4). -/
theorem afterRequest_requestFault_of_legal {i : Instr} (h : ¬(i.opcode = 0b110 ∨ i.opcode = 0b111)) (s : State) :
    (afterRequest i s).requestFault = s.requestFault := by
  cases i with
  | reserved110 => exact absurd (.inl rfl) h
  | reserved111 => exact absurd (.inr rfl) h
  | _ => rfl

/-! ## The edge of each kind (R243) -/

section
variable {p : Ports}

theorem afterEdge_of_reset (hr : p.rst = 1) (s : State) : afterEdge p s = resetEdge s := by
  rw [afterEdge, edgeKind_reset hr]

theorem afterEdge_of_idle (hr : p.rst = 0) (hv : p.reqValid = 0) (s : State) : afterEdge p s = idleEdge s := by
  rw [afterEdge, edgeKind_idle hr hv]

theorem afterEdge_of_accept (hr : p.rst = 0) (hv : p.reqValid = 1) (s : State) :
    afterEdge p s = afterRequest (decode p.request) s := by
  rw [afterEdge, edgeKind_accept hr hv]

theorem acceptsReserved_eq_false_iff_of_accept (hr : p.rst = 0) (hv : p.reqValid = 1) :
    acceptsReserved p = false ↔ ¬(p.reqOp = 0b110 ∨ p.reqOp = 0b111) := by
  simp [acceptsReserved, edgeKind_accept hr hv]

end

/-- The three ways an edge can leave `ILLEGAL` 0; an idle edge only keeps it so (R215, R245). -/
theorem statusIllegal_afterEdge_eq_zero_iff (p : Ports) (s : State) :
    statusIllegal (afterEdge p s).status = 0 ↔
      p.rst = 1 ∨ (p.reqValid = 1 ∧ ¬(p.reqOp = 0b110 ∨ p.reqOp = 0b111)) ∨
        (p.reqValid = 0 ∧ statusIllegal s.status = 0) := by
  rcases edgeKind_cases p with ⟨hr, -⟩ | ⟨hr, hv, -⟩ | ⟨hr, hv, -⟩
  · rw [afterEdge_of_reset hr]
    exact iff_of_true (by decide : statusIllegal State.reset.status = 0) (.inl hr)
  · rw [afterEdge_of_idle hr hv, idleEdge_status, statusIllegal_idleStatus]
    simp [hr, hv]
  · rw [afterEdge_of_accept hr hv, statusIllegal_afterRequest_eq_zero_iff, request_op]
    simp [hr, hv]

/-! ## States without a recorded fault -/

/-- No fault is recorded, neither in `ILLEGAL` nor in the model's own record (R212, log 4). -/
structure NoFaultRecorded (s : State) : Prop where
  illegal : statusIllegal s.status = 0
  record : s.requestFault = none

theorem noFaultRecorded_resetEdge (s : State) : NoFaultRecorded (resetEdge s) where
  illegal := (by decide : statusIllegal State.reset.status = 0)
  record := rfl

section
variable {s : State}

theorem noFaultRecorded_passEdge (h : NoFaultRecorded s) : NoFaultRecorded (passEdge s) := { h with }

theorem noFaultRecorded_idleEdge (h : NoFaultRecorded s) : NoFaultRecorded (idleEdge s) where
  illegal := (statusIllegal_idleStatus s.status).trans h.illegal
  record := h.record

theorem noFaultRecorded_afterRequest (h : NoFaultRecorded s) {r : Request}
    (hlegal : ¬(r.op = 0b110 ∨ r.op = 0b111)) : NoFaultRecorded (afterRequest (decode r) s) where
  illegal := (statusIllegal_afterRequest_eq_zero_iff r s).2 hlegal
  record := by
    rw [← opcode_decode r] at hlegal
    exact (afterRequest_requestFault_of_legal hlegal s).trans h.record

theorem noFaultRecorded_afterEdge (h : NoFaultRecorded s) {p : Ports} (hp : acceptsReserved p = false) :
    NoFaultRecorded (afterEdge p s) := by
  rcases edgeKind_cases p with ⟨hr, -⟩ | ⟨hr, hv, -⟩ | ⟨hr, hv, -⟩
  · rw [afterEdge_of_reset hr]
    exact noFaultRecorded_resetEdge s
  · rw [afterEdge_of_idle hr hv]
    exact noFaultRecorded_idleEdge h
  · rw [afterEdge_of_accept hr hv]
    exact noFaultRecorded_afterRequest h ((acceptsReserved_eq_false_iff_of_accept hr hv).1 hp)

theorem noFaultRecorded_afterEdges (h : NoFaultRecorded s) {ps : List Ports}
    (hps : ∀ p ∈ ps, acceptsReserved p = false) : NoFaultRecorded (afterEdges ps s) :=
  List.foldlRecOn ps _ h fun _ ht p hp => noFaultRecorded_afterEdge (noFaultRecorded_passEdge ht) (hps p hp)

end

/-- The reset edge clears whatever was recorded, and no later edge of a safe run records anything. -/
theorem noFaultRecorded_of_safeRun {ps : List Ports} (h : SafeRun ps) (s : State) :
    NoFaultRecorded (afterEdges ps s) := by
  obtain ⟨⟨p, rest, rfl, hrst⟩, hlegal⟩ := h
  have hfirst : NoFaultRecorded (afterEdge p (passEdge s)) := by
    rw [afterEdge_of_reset hrst]
    exact noFaultRecorded_resetEdge _
  exact noFaultRecorded_afterEdges hfirst fun q hq => hlegal q (List.mem_cons_of_mem p hq)

/-! ## The statements -/

/-- Settles O28: of the three ways to `ILLEGAL` 0, an idle edge is shut out by the 1 before it. -/
theorem illegalIsClearedByLegalRequestOrReset : Obligations.IllegalIsClearedByLegalRequestOrReset := by
  intro p ps s hill
  refine ⟨_, step_eq_afterEdge _, ?cleared, fun hr hv hop => ?again⟩
  case cleared => simpa [hill] using statusIllegal_afterEdge_eq_zero_iff p (passEdge s)
  case again =>
    rw [sampledPorts_drive_cons, afterEdge_of_accept hr hv, afterRequest_status,
      statusIllegal_statusResult_eq_one_iff, statusLastOp_statusResult, opcode_decode]
    exact ⟨hop, rfl⟩

/-- Settles O33: a step is an edge on the state, and a run is the fold of its edges. -/
theorem noEdgeStopsTheBlock : Obligations.NoEdgeStopsTheBlock :=
  ⟨fun s => ⟨_, step_eq_afterEdge s⟩, fun ps s => ⟨_, runOver_eq_afterEdges ps s⟩⟩

/-- Settles O55. -/
theorem safeRunsRecordNoFault : Obligations.SafeRunsRecordNoFault := by
  intro ps s hsafe
  obtain ⟨hill, hrecord⟩ := noFaultRecorded_of_safeRun hsafe s
  exact ⟨_, runOver_eq_afterEdges ps s, hill, hrecord⟩

/-- Settles O27: both codes take the one condition. -/
theorem reservedCodesRecordTheCondition : Obligations.ReservedCodesRecordTheCondition := fun s =>
  ⟨_, _, exec_eq_afterRequest .reserved110 s, exec_eq_afterRequest .reserved111 s,
    takeIllegal_status_fields 0b110 s, takeIllegal_status_fields 0b111 s,
    takeIllegal_result_registers 0b110 s, takeIllegal_result_registers 0b111 s,
    takeIllegal_requestFault_ne_none 0b110 s, takeIllegal_requestFault_ne_none 0b111 s⟩

end Sys2Proof.Machine
end

section
/-! SUPPORT. Reset and hazards (spec/70_reset_and_hazards.md): the edge of each kind register by register, the latest
writer of a register over a run, and the frame `RES_OK` speaks of. At the end, the statements settled with these. -/

namespace Sys2Proof.Machine

/-! ## An accepted request, register by register (R71, R243) -/

/-- Every request is the request of some instruction over some buses, so cases on requests are cases on
instructions. -/
theorem exists_eq_encodeOn (r : Request) : ∃ (bg : Buses) (i : Instr), r = encodeOn bg i :=
  ⟨r.toBuses, decode r, (encodeOn_decode r).symm⟩

theorem statusValid_afterRequest (i : Instr) (s : State) : statusValid (afterRequest i s).status = 1 := by
  rw [afterRequest_status]
  cases i with
  | reserved110 => exact statusValid_illegalStatus _
  | reserved111 => exact statusValid_illegalStatus _
  | _ => exact statusValid_legalStatus _

section
variable (r : Request) (s : State)

theorem afterRequest_decode_resWf : (afterRequest (decode r) s).resWf =
    if r.op = 0b000 then pack r.lpIn else if r.op = 0b100 then 0 else s.resWf := by
  obtain ⟨bg, i, rfl⟩ := exists_eq_encodeOn r
  cases i <;> rfl

theorem afterRequest_decode_resLp : (afterRequest (decode r) s).resLp =
    if r.op = 0b001 then unpack r.wfIn else if r.op = 0b011 then defaultLp else s.resLp := by
  obtain ⟨bg, i, rfl⟩ := exists_eq_encodeOn r
  cases i <;> rfl

theorem afterRequest_decode_resOk : (afterRequest (decode r) s).resOk =
    if r.op = 0b010 then verify r.cfIn else s.resOk := by
  obtain ⟨bg, i, rfl⟩ := exists_eq_encodeOn r
  cases i <;> rfl

theorem afterRequest_decode_resCf : (afterRequest (decode r) s).resCf =
    if r.op = 0b101 then 0x01CEC0 else s.resCf := by
  obtain ⟨bg, i, rfl⟩ := exists_eq_encodeOn r
  cases i <;> rfl

theorem statusLastOp_afterRequest_decode : statusLastOp (afterRequest (decode r) s).status = r.op := by
  rw [afterRequest_status, statusLastOp_statusResult, opcode_decode]

theorem statusIllegal_afterRequest_decode : statusIllegal (afterRequest (decode r) s).status =
    if r.op = 0b110 ∨ r.op = 0b111 then 1 else 0 := by
  by_cases hop : r.op = 0b110 ∨ r.op = 0b111
  · rw [if_pos hop, afterRequest_status, statusIllegal_statusResult_eq_one_iff, opcode_decode]
    exact hop
  · rw [if_neg hop]
    exact (statusIllegal_afterRequest_eq_zero_iff r s).2 hop

end

theorem reset_status_fields : statusValid State.reset.status = 0 ∧ statusIllegal State.reset.status = 0 ∧
    statusLastOp State.reset.status = 0b000 := by decide

/-- `VALID` marks the accepting edges (R248), and neither an idle edge (R245) nor a reset edge (R31). -/
theorem statusValid_afterEdge_eq_one_iff (p : Ports) (s : State) :
    statusValid (afterEdge p s).status = 1 ↔ p.rst = 0 ∧ p.reqValid = 1 := by
  rcases edgeKind_cases p with ⟨hr, -⟩ | ⟨hr, hv, -⟩ | ⟨hr, hv, -⟩
  · rw [afterEdge_of_reset hr]
    exact iff_of_false (by decide : ¬statusValid State.reset.status = 1) (by simp [hr])
  · rw [afterEdge_of_idle hr hv, idleEdge_status, statusValid_idleStatus]
    simp [hv]
  · rw [afterEdge_of_accept hr hv]
    exact iff_of_true (statusValid_afterRequest _ s) ⟨hr, hv⟩

theorem afterEdges_concat (ps : List Ports) (p : Ports) (s : State) :
    afterEdges (ps ++ [p]) s = afterEdge p (passEdge (afterEdges ps s)) :=
  List.foldl_concat ..

/-! ## What an edge writes to a register, whichever register it is (R29, R240, R245) -/

/-- What an edge writes to a register with the reset value `atReset` to which a request writes `result`. -/
def edgeWrites {α : Type} (atReset : α) (result : Request → Option α) (p : Ports) : Option α :=
  match edgeKind p with
  | .reset => some atReset
  | .idle => none
  | .accept r => result r

section
variable {α : Type} {atReset : α} {result : Request → Option α} {p : Ports}

theorem edgeWrites_of_reset (hr : p.rst = 1) : edgeWrites atReset result p = some atReset := by
  rw [edgeWrites, edgeKind_reset hr]

theorem edgeWrites_of_idle (hr : p.rst = 0) (hv : p.reqValid = 0) : edgeWrites atReset result p = none := by
  rw [edgeWrites, edgeKind_idle hr hv]

theorem edgeWrites_of_accept (hr : p.rst = 0) (hv : p.reqValid = 1) :
    edgeWrites atReset result p = result p.request := by
  rw [edgeWrites, edgeKind_accept hr hv]

end

theorem lpWritten_eq_edgeWrites : lpWritten = edgeWrites State.reset.resLp (fun r => lpResult (decode r)) := by
  funext p
  unfold lpWritten edgeWrites
  cases edgeKind p with
  | accept r =>
    obtain ⟨bg, i, rfl⟩ := exists_eq_encodeOn r
    cases i <;> rfl
  | _ => rfl

theorem wfWritten_eq_edgeWrites : wfWritten = edgeWrites State.reset.resWf (fun r => wfResult (decode r)) := by
  funext p
  unfold wfWritten edgeWrites
  cases edgeKind p with
  | accept r =>
    obtain ⟨bg, i, rfl⟩ := exists_eq_encodeOn r
    cases i <;> rfl
  | _ => rfl

theorem cfWritten_eq_edgeWrites : cfWritten = edgeWrites State.reset.resCf (fun r => cfResult (decode r)) := by
  funext p
  unfold cfWritten edgeWrites
  cases edgeKind p with
  | accept r =>
    obtain ⟨bg, i, rfl⟩ := exists_eq_encodeOn r
    cases i <;> rfl
  | _ => rfl

theorem okWritten_eq_edgeWrites : okWritten = edgeWrites State.reset.resOk (fun r => okResult (decode r)) := by
  funext p
  unfold okWritten edgeWrites
  cases edgeKind p with
  | accept r =>
    obtain ⟨bg, i, rfl⟩ := exists_eq_encodeOn r
    cases i <;> rfl
  | _ => rfl

/-- `LAST_OP` and `ILLEGAL`, the two fields of STATUS that only a reset or a request changes (R243). -/
def requestStatus (s : State) : OpCode × Bit := (statusLastOp s.status, statusIllegal s.status)

theorem requestStatus_idleEdge (s : State) : requestStatus (idleEdge s) = requestStatus s :=
  Prod.ext (statusLastOp_idleStatus s.status) (statusIllegal_idleStatus s.status)

/-- What a request makes of `LAST_OP` and `ILLEGAL`. -/
def requestResult (r : Request) : OpCode × Bit := (r.op, if r.op = 0b110 ∨ r.op = 0b111 then 1 else 0)

theorem requestStatus_afterRequest (r : Request) (s : State) :
    requestStatus (afterRequest (decode r) s) = requestResult r :=
  Prod.ext (statusLastOp_afterRequest_decode r s) (statusIllegal_afterRequest_decode r s)

theorem requestWritten_eq_edgeWrites :
    requestWritten = edgeWrites (requestStatus State.reset) (fun r => some (requestResult r)) := by
  funext p
  unfold requestWritten edgeWrites
  cases edgeKind p with
  | accept r =>
    obtain ⟨bg, i, rfl⟩ := exists_eq_encodeOn r
    cases i <;> rfl
  | _ => rfl

/-! ## The latest writer of a register (R247) -/

section
variable {α : Type} {w : Ports → Option α} {reg : State → α}

/-- Every edge leaves in the register `reg` what `w` says it writes, or the value it had. -/
def WrittenBy (reg : State → α) (w : Ports → Option α) : Prop :=
  ∀ (p : Ports) (s : State), reg (afterEdge p (passEdge s)) = (w p).getD (reg s)

theorem latest_cons (w : Ports → Option α) (p : Ports) (ps : List Ports) (old : α) :
    latest w (p :: ps) old = latest w ps ((w p).getD old) := by
  rw [latest, latest, List.reverse_cons, List.findSome?_append, Option.getD_or, List.findSome?_singleton]

theorem latest_eq_old {ps : List Ports} (h : ∀ p ∈ ps, w p = none) (old : α) : latest w ps old = old := by
  have hnone : ps.reverse.findSome? w = none :=
    List.findSome?_eq_none_iff.2 fun p hp => h p (List.mem_reverse.1 hp)
  rw [latest, hnone, Option.getD_none]

/-- A register written edge by edge ends a run with the latest value written. -/
theorem WrittenBy.afterEdges_eq_latest (hreg : WrittenBy reg w) (ps : List Ports) (s : State) :
    reg (afterEdges ps s) = latest w ps (reg s) := by
  induction ps generalizing s with
  | nil => rfl
  | cons p ps ih =>
    calc reg (afterEdges (p :: ps) s)
        = reg (afterEdges ps (afterEdge p (passEdge s))) := rfl
      _ = latest w ps ((w p).getD (reg s)) := by rw [ih, hreg]
      _ = latest w (p :: ps) (reg s) := (latest_cons w p ps (reg s)).symm

/-- Idle edges write to no register (R245). -/
theorem WrittenBy.afterEdges_idle {atReset : α} {result : Request → Option α}
    (hreg : WrittenBy reg (edgeWrites atReset result)) {ps : List Ports}
    (hidle : ∀ p ∈ ps, p.rst = 0 ∧ p.reqValid = 0) (s : State) : reg (afterEdges ps s) = reg s := by
  rw [hreg.afterEdges_eq_latest]
  refine latest_eq_old (fun p hp => ?_) (reg s)
  obtain ⟨hr, hv⟩ := hidle p hp
  exact edgeWrites_of_idle hr hv

/-- A register that a reset edge, an idle edge and a request treat as `edgeWrites` says is written so by every
edge, for there is no fourth kind (R243). -/
theorem writtenBy_edgeWrites {result : Request → Option α} (hpass : ∀ s, reg (passEdge s) = reg s)
    (hreset : ∀ s, reg (resetEdge s) = reg State.reset) (hidle : ∀ s, reg (idleEdge s) = reg s)
    (hrequest : ∀ r s, reg (afterRequest (decode r) s) = (result r).getD (reg s)) :
    WrittenBy reg (edgeWrites (reg State.reset) result) := by
  intro p s
  rcases edgeKind_cases p with ⟨hr, -⟩ | ⟨hr, hv, -⟩ | ⟨hr, hv, -⟩
  · rw [afterEdge_of_reset hr, hreset, edgeWrites_of_reset hr, Option.getD_some]
  · rw [afterEdge_of_idle hr hv, hidle, hpass, edgeWrites_of_idle hr hv, Option.getD_none]
  · rw [afterEdge_of_accept hr hv, hrequest, hpass, edgeWrites_of_accept hr hv]

end

theorem resLp_writtenBy : WrittenBy State.resLp (edgeWrites State.reset.resLp (fun r => lpResult (decode r))) :=
  writtenBy_edgeWrites passEdge_resLp resetEdge_resLp idleEdge_resLp fun r => afterRequest_resLp (decode r)

theorem resWf_writtenBy : WrittenBy State.resWf (edgeWrites State.reset.resWf (fun r => wfResult (decode r))) :=
  writtenBy_edgeWrites passEdge_resWf resetEdge_resWf idleEdge_resWf fun r => afterRequest_resWf (decode r)

theorem resCf_writtenBy : WrittenBy State.resCf (edgeWrites State.reset.resCf (fun r => cfResult (decode r))) :=
  writtenBy_edgeWrites passEdge_resCf resetEdge_resCf idleEdge_resCf fun r => afterRequest_resCf (decode r)

theorem resOk_writtenBy : WrittenBy State.resOk (edgeWrites State.reset.resOk (fun r => okResult (decode r))) :=
  writtenBy_edgeWrites passEdge_resOk resetEdge_resOk idleEdge_resOk fun r => afterRequest_resOk (decode r)

theorem requestStatus_writtenBy : WrittenBy requestStatus
    (edgeWrites (requestStatus State.reset) (fun r => some (requestResult r))) :=
  writtenBy_edgeWrites (fun _ => rfl) (fun _ => rfl) requestStatus_idleEdge
    requestStatus_afterRequest

/-! ## Runs that begin with a reset edge (R242) -/

theorem regInv_afterEdges {s : State} (h : RegInv s) (ps : List Ports) : RegInv (afterEdges ps s) :=
  List.foldlRecOn ps _ h fun _ ht p _ => regInv_afterEdge (regInv_passEdge ht) p

/-- The reset edge establishes the invariant, whatever stood before it, and every later edge keeps it. -/
theorem regInv_of_booted {ps : List Ports} (h : Booted ps) (s : State) : RegInv (afterEdges ps s) := by
  obtain ⟨p, rest, rfl, hrst⟩ := h
  have hfirst : RegInv (afterEdge p (passEdge s)) := by
    rw [afterEdge_of_reset hrst]
    exact regInv_resetEdge _
  exact regInv_afterEdges hfirst rest

/-- `RES_OK` after any run: the verdict on the frame judged last, the reset value if a reset came since, or the old
value if the run has neither (R249). -/
theorem latest_okWritten (ps : List Ports) (old : Bit) :
    latest okWritten ps old =
      (judgedFrame ps).elim (if ps.any (fun q => q.rst = 1) then 0 else old) verify := by
  induction ps generalizing old with
  | nil => rfl
  | cons p ps ih =>
    rw [latest_cons, ih, judgedFrame, List.any_cons]
    cases judgedFrame ps with
    | some c => rfl
    | none =>
      cases ps.any (fun q => q.rst = 1) with
      | true => simp
      | false =>
        rcases edgeKind_cases p with ⟨hr, hk⟩ | ⟨hr, -, hk⟩ | ⟨hr, -, hk⟩
        · simp [okWritten, hr, hk]
        · simp [okWritten, hr, hk]
        · by_cases hop : p.reqOp = 0b010#3
          · simp [okWritten, hk, hop]
          · simp [okWritten, hr, hk, hop]

/-- A run with a reset edge leaves `RES_OK` 1 exactly if the frame judged since it carries the constant. -/
theorem latest_okWritten_eq_one_iff {ps : List Ports} (h : Booted ps) (old : Bit) :
    latest okWritten ps old = 1 ↔ ∃ C, MayAct ps C := by
  obtain ⟨p, rest, rfl, hrst⟩ := h
  have hreset : (p :: rest).any (fun q => q.rst = 1) = true := by simp [hrst]
  rw [latest_okWritten, if_pos hreset]
  unfold MayAct
  cases judgedFrame (p :: rest) with
  | none => simp
  | some C => simp

/-! ## The statements -/

/-- Settles O7: a step is an edge on the state, and the three kinds of edge are the three clauses. -/
theorem edgeFollowsTheStepFunction : Obligations.EdgeFollowsTheStepFunction := by
  intro p ps s
  refine ⟨_, step_eq_afterEdge _, fun hr => ?reset, fun hr hv => ?idle, fun hr hv => ?accept⟩
  case reset =>
    rw [sampledPorts_drive_cons, afterEdge_of_reset hr]
    exact ⟨rfl, rfl, rfl, rfl, rfl⟩
  case idle =>
    rw [sampledPorts_drive_cons, afterEdge_of_idle hr hv]
    exact ⟨rfl, rfl, rfl, rfl, statusValid_idleStatus _, statusIllegal_idleStatus _, statusLastOp_idleStatus _⟩
  case accept =>
    rw [sampledPorts_drive_cons, afterEdge_of_accept hr hv]
    refine ⟨afterRequest_decode_resWf _ _, afterRequest_decode_resLp _ _, ?ok, afterRequest_decode_resCf _ _,
      statusValid_afterRequest _ _, statusIllegal_afterRequest_decode _ _, statusLastOp_afterRequest_decode _ _⟩
    rw [afterRequest_decode_resOk, verify_eq_ite]
    rfl

/-- Settles O10: idle edges write to none of these, and the last of them clears `VALID`. -/
theorem idleEdgesChangeValidAlone : Obligations.IdleEdgesChangeValidAlone := by
  intro ps s hidle
  have hrequest : requestStatus (afterEdges ps s) = requestStatus s :=
    requestStatus_writtenBy.afterEdges_idle hidle s
  obtain ⟨hlastOp, hillegal⟩ := Prod.mk.inj hrequest
  refine ⟨_, runOver_eq_afterEdges ps s, resLp_writtenBy.afterEdges_idle hidle s,
    resWf_writtenBy.afterEdges_idle hidle s, resCf_writtenBy.afterEdges_idle hidle s,
    resOk_writtenBy.afterEdges_idle hidle s, hillegal, hlastOp, fun hne => ?valid⟩
  obtain ⟨init, p, rfl⟩ := (List.eq_nil_or_concat' ps).resolve_left hne
  obtain ⟨hr, hv⟩ := hidle p (List.mem_append_right init (List.mem_singleton_self p))
  rw [afterEdges_concat, afterEdge_of_idle hr hv]
  exact statusValid_idleStatus _

/-- Settles O11, by the last edge of the run. -/
theorem validPulsesAfterAcceptingEdges : Obligations.ValidPulsesAfterAcceptingEdges := by
  intro ps p s
  refine ⟨_, runOver_eq_afterEdges (ps ++ [p]) s, ?_⟩
  rw [afterEdges_concat]
  refine ⟨statusValid_afterEdge_eq_one_iff p _, fun hr hv => ⟨_, runOver_eq_afterEdges ps s, ?_⟩⟩
  rw [afterEdge_of_idle hr hv]
  exact ⟨statusIllegal_idleStatus _, statusLastOp_idleStatus _⟩

/-- Settles O52. -/
theorem bootedRunsMeetTheRegisterInvariant : Obligations.BootedRunsMeetTheRegisterInvariant :=
  fun ps s hbooted => ⟨_, runOver_eq_afterEdges ps s, { regInv_of_booted hbooted s with }⟩

/-- Settles O53: each register is written edge by edge, so it ends with the latest value written. -/
theorem registersHoldTheLatestResult : Obligations.RegistersHoldTheLatestResult := by
  intro ps s
  refine ⟨_, runOver_eq_afterEdges ps s, ?_⟩
  rw [lpWritten_eq_edgeWrites, wfWritten_eq_edgeWrites, cfWritten_eq_edgeWrites, okWritten_eq_edgeWrites,
    requestWritten_eq_edgeWrites]
  exact ⟨resLp_writtenBy.afterEdges_eq_latest ps s, resWf_writtenBy.afterEdges_eq_latest ps s,
    resCf_writtenBy.afterEdges_eq_latest ps s, resOk_writtenBy.afterEdges_eq_latest ps s,
    requestStatus_writtenBy.afterEdges_eq_latest ps s⟩

/-- Settles O54: `RES_OK` holds its latest result, which is the verdict on the frame judged last. -/
theorem verdictSpeaksOfTheLastJudgedFrame : Obligations.VerdictSpeaksOfTheLastJudgedFrame := by
  intro ps s hbooted
  obtain ⟨t, hrun, -, -, -, hok, -⟩ := registersHoldTheLatestResult ps s
  refine ⟨t, hrun, ?_⟩
  rw [hok]
  exact latest_okWritten_eq_one_iff hbooted s.resOk

/-- Settles O5. -/
theorem acceptingEdgeRunsTheDecodedRequest : Obligations.AcceptingEdgeRunsTheDecodedRequest := by
  intro s hr hv
  refine ⟨(roundTrip_statement _).1, ?_⟩
  rw [step_eq_afterEdge, afterEdge_of_accept hr hv, exec_eq_afterRequest]
  rfl

/-- Settles O8: a reset edge looks at no other port and at no register. -/
theorem resetEdgeTakesTheResetValues : Obligations.ResetEdgeTakesTheResetValues := by
  intro p ps s hr
  refine ⟨_, step_eq_afterEdge _, ?_⟩
  rw [sampledPorts_drive_cons, afterEdge_of_reset hr]
  exact ⟨rfl, defaultLp_level, rfl, rfl, rfl, rfl, rfl, rfl, reset_status_fields⟩

/-- Settles O9: the reset values are the default ones, and the default ControlFrame is a composed one. -/
theorem resetEqualsDefaultConstruction : Obligations.ResetEqualsDefaultConstruction := by
  intro s
  have hcf : cfOut State.reset = composeControl 0 0 := rfl
  refine ⟨_, _, _, _, exec_eq_afterRequest .lpdef s, rfl, exec_eq_afterRequest .wfdef s, rfl,
    exec_eq_afterRequest .cfdef s, rfl, exec_eq_afterRequest _ _, ?_⟩
  rw [afterRequest_cfverify_resOk, hcf]
  exact verify_composeControl 0 0

end Sys2Proof.Machine
end

section
/-! SUPPORT. The words of the opcode table on the ports (spec/30_encoding.md section 1, log 7), and the model's own
fields over one edge (logs 1, 3, 4 and 6). At the end, the statements settled with these. -/

namespace Sys2Proof.Machine

/-! ## The words of the opcode table (log 7) -/

/-- A table word that is a code stands for the request with that code over zero buses. -/
theorem ofTableWord_toNat {nbits : Nat} (h : 3 ≤ nbits) (op : OpCode) :
    Request.ofTableWord nbits op.toNat = { toBuses := Buses.zero, op := op } := by
  have hlt : op.toNat < 2 ^ nbits := op.isLt.trans_le (Nat.pow_le_pow_right Nat.two_pos h)
  rw [Request.ofTableWord, Nat.mod_eq_of_lt hlt, BitVec.ofNat_toNat, BitVec.setWidth_eq]

theorem decodeTableWord_toNat {nbits : Nat} (h : 3 ≤ nbits) {op : OpCode} {i : Instr}
    (hdecode : decode { toBuses := Buses.zero, op := op } = i) : decodeTableWord nbits op.toNat = some i := by
  rw [decodeTableWord, ofTableWord_toNat h, hdecode]

@[simp] theorem request_ofRequest (r : Request) : (Ports.ofRequest r).request = r := rfl

@[simp] theorem sampledPorts_withFetchWord (s : State) (nbits w : Nat) :
    sampledPorts (s.withFetchWord nbits w) = Ports.ofRequest (Request.ofTableWord nbits w) := rfl

/-! ## The count of edges (log 3) -/

@[simp] theorem afterRequest_edges (i : Instr) (s : State) : (afterRequest i s).edges = s.edges := by
  cases i <;> rfl

/-- Only the passing of an edge counts it, not what the edge does. -/
@[simp] theorem afterEdge_edges (p : Ports) (s : State) : (afterEdge p s).edges = s.edges := by
  unfold afterEdge
  cases edgeKind p with
  | reset => exact resetEdge_edges s
  | idle => exact idleEdge_edges s
  | accept r => exact afterRequest_edges (decode r) s

/-! ## The fault record (log 4) -/

theorem afterRequest_requestFault_of_reserved {i : Instr} (h : i.opcode = 0b110 ∨ i.opcode = 0b111) (s : State) :
    (afterRequest i s).requestFault = s.requestFault.or (some i.opcode) := by
  cases i with
  | reserved110 => exact takeIllegal_requestFault 0b110 s
  | reserved111 => exact takeIllegal_requestFault 0b111 s
  | _ => simp [Instr.opcode] at h

/-- A reserved code enters an empty record, and nothing else of a request touches the record. -/
theorem afterRequest_decode_requestFault (r : Request) (s : State) : (afterRequest (decode r) s).requestFault =
    if (r.op = 0b110 ∨ r.op = 0b111) ∧ s.requestFault = none then some r.op else s.requestFault := by
  by_cases hop : r.op = 0b110 ∨ r.op = 0b111
  · rw [afterRequest_requestFault_of_reserved (by rwa [opcode_decode]), opcode_decode]
    cases s.requestFault with
    | none => exact (if_pos ⟨hop, rfl⟩).symm
    | some c => exact (if_neg fun h => Option.some_ne_none c h.2).symm
  · rw [afterRequest_requestFault_of_legal (by rwa [opcode_decode]), if_neg fun h => hop h.1]

theorem afterEdge_requestFault (p : Ports) (s : State) : (afterEdge p s).requestFault =
    if p.rst = 1 then none
    else if p.reqValid = 1 ∧ (p.reqOp = 0b110 ∨ p.reqOp = 0b111) ∧ s.requestFault = none then some p.reqOp
    else s.requestFault := by
  rcases edgeKind_cases p with ⟨hr, -⟩ | ⟨hr, hv, -⟩ | ⟨hr, hv, -⟩
  · rw [afterEdge_of_reset hr, if_pos hr]
    exact resetEdge_requestFault s
  · rw [afterEdge_of_idle hr hv]
    simp [hr, hv]
  · have hrst : ¬p.rst = 1 := by simp [hr]
    rw [afterEdge_of_accept hr hv, afterRequest_decode_requestFault, if_neg hrst]
    exact (if_congr (and_iff_right hv) rfl rfl).symm

/-! ## The statements -/

/-- Settles O12: the model's own fields after an edge, each by its own lemma. -/
theorem edgeKeepsTheModelFields : Obligations.EdgeKeepsTheModelFields := by
  intro p ps s
  refine ⟨_, step_eq_afterEdge _, ?_⟩
  rw [sampledPorts_drive_cons, passEdge_drive_cons, afterEdge_drive]
  refine ⟨State.drive_upcoming ps _, ?edges, ?resetSeen, ?requestFault⟩
  case edges => rw [State.drive_edges, afterEdge_edges, passEdge_edges]
  case resetSeen =>
    rw [State.drive_resetSeen, afterEdge_resetSeen, passEdge_resetSeen]
    by_cases hr : p.rst = 1 <;> simp [hr]
  case requestFault => rw [State.drive_requestFault, afterEdge_requestFault, passEdge_requestFault]

/-- Settles O2: a table word is a code over zero buses, and each code selects its operation. -/
theorem tableWordsDecodeToTheirRows : Obligations.TableWordsDecodeToTheirRows := by
  obtain ⟨hpack, hunpack, hcfverify, hlpdef, hwfdef, hcfdef, h110, h111⟩ := codesSelectTheirOperations Buses.zero
  have hbits : 3 ≤ 8 := by decide
  exact ⟨decodeTableWord_toNat hbits hpack, decodeTableWord_toNat hbits hunpack,
    decodeTableWord_toNat hbits hcfverify, decodeTableWord_toNat hbits hlpdef, decodeTableWord_toNat hbits hwfdef,
    decodeTableWord_toNat hbits hcfdef, decodeTableWord_toNat hbits h110, decodeTableWord_toNat hbits h111⟩

/-- Settles O6: the word's request is accepted at the next edge, which runs what the request decodes to. -/
theorem fetchWordRunsAtTheNextEdge : Obligations.FetchWordRunsAtTheNextEdge := by
  intro s nbits w
  obtain ⟨-, hstep⟩ := acceptingEdgeRunsTheDecodedRequest (s.withFetchWord nbits w) rfl rfl
  rw [sampledPorts_withFetchWord, request_ofRequest] at hstep
  exact ⟨decode (Request.ofTableWord nbits w), rfl, hstep⟩

end Sys2Proof.Machine
end
